-- ==== Sys2Proof/Word.lean ====
section
/-! DEFINITION. The word types of the Rhotor: bytes, 64-bit scalars and slot words, 64 B lines (R5, R29, R200). -/

namespace Sys2Proof

/-- A byte of any memory. -/
abbrev Byte := BitVec 8

/-- A scalar register, a slot word or a bundle header (R29, R191). -/
abbrev Word := BitVec 64

/-- A ring line, a Yard line or a vector register: 64 bytes, byte j in bits [8j+7:8j] (R157, R200). -/
abbrev Line := BitVec 512

/-- A sparse table: the keys that differ from the table's default, strictly rising. -/
abbrev Table (α : Type) := List (Nat × α)

end Sys2Proof
end

