-- ==== Sys2Proof/Syntax.lean ====
section
/-! DEFINITION. The operations of the Rhotor: one constructor of Instr for each row of the opcode table
(slot words R59 to R68, timeline commands R82, and the autonomous events of the part). -/

namespace Sys2Proof

/-- The guard of a slot word (R34, R36): gk picks a scalar predicate, inv inverts. -/
structure Guard where
  inv : Bool
  gk : Bool
  gc : Nat
  gi : Nat
  deriving DecidableEq, Repr

/-- A 12-bit operand descriptor (R37). `imm` holds the ten raw bits of the immediate. -/
inductive Opd where
  | reg (i : Nat)
  | latch (c u : Nat)
  | slatch (u : Nat)
  | tap (aw : Bool) (lane : Nat)
  | loop (l : Nat)
  | imm (v : Nat)
  | om (i : Nat)
  | acc (i : Nat)
  | pred (q : Bool) (i : Nat)
  deriving DecidableEq, Repr

/-- A slot word of the common layout (R34): scalar, X, Y, Z and mx classes. -/
structure SlotOp where
  pos : Nat
  g : Guard
  dst : Opd
  a : Opd
  b : Opd
  mod : Nat
  deriving DecidableEq, Repr

/-- A ctl word (R55): a descriptor and a 34-bit immediate. -/
structure CtlOp where
  g : Guard
  a : Opd
  imm : Nat
  deriving DecidableEq, Repr

/-- A ring word (R55, R159). -/
structure RingOp where
  pos : Nat
  g : Guard
  aw : Bool
  lane : Nat
  base : Opd
  line : Nat
  mod : Nat
  deriving DecidableEq, Repr

/-- An accumulator-port word (R55, R242). -/
structure ApOp where
  pos : Nat
  g : Guard
  tile : Opd
  row : Opd
  aw : Bool
  lane : Nat
  seg : Nat
  deriving DecidableEq, Repr

/-- An hd word (R55, R269). -/
structure HdOp where
  g : Guard
  aw : Bool
  lane : Nat
  tag : Nat
  count : Nat
  table : Nat
  fmt : Nat
  deriving DecidableEq, Repr

/-- An en word (R55): two descriptors and a 22-bit immediate. -/
structure EnOp where
  g : Guard
  a : Opd
  b : Opd
  imm : Nat
  deriving DecidableEq, Repr

/-- Integer element types of the vector families (R57). -/
inductive ETy where
  | i8
  | i32
  | i16
  deriving DecidableEq, Repr

/-- A flit of a timed transfer (R341, R345), as it stands on the link. -/
structure Flit where
  port : Nat
  srcRank : Nat
  dstRank : Nat
  dstBrick : Nat
  arrive : Nat
  crit : Bool
  retry : Bool
  crcOk : Bool
  lines : List Line
  deriving DecidableEq, Repr

/-- Registers that the Mason or a host port writes and that have no row of their own (R95, R107, R115, R122,
R340, R358, R376, R390, R405 to R408). -/
inductive MasonReg where
  | htalloc (k : Nat)
  | hctl
  | hrht
  | bondmode
  | tornovf (stack : Nat)
  | vptroot (k : Nat)
  | ranktbl (r : Nat)
  | pathtbl (r : Nat)
  | slice (k : Nat)
  | brkctl (b : Nat)
  | hdmaw (p i : Nat)
  | admitReg (n : Nat)
  | pwrlim
  | attnonce
  /-- read only (R376, R408) -/
  | qstat (k q : Nat)
  | attrep
  /-- a core of the Mason, which the kernel releases, and a 64-bit word of its private memory (R399) -/
  | core (i : Nat)
  | privateWord (addr : Nat)
  deriving DecidableEq, Repr

/-- What a reset finds outside the package (R400, R401): the boot flash image and the results of training. -/
structure Firmware where
  readable : Bool
  header : List Byte
  payload : List Byte
  signature : List Byte
  pllLocked : Bool
  untrained : List Nat
  deriving DecidableEq, Repr

/-- What the signature of an image covers (R401). -/
def Firmware.signed (f : Firmware) : List Byte := f.header ++ f.payload

/-- A write through a trapped brick's state window (R390): the location and the new contents. -/
inductive WindowEdit where
  | sreg (i : Nat) (v : Word)
  | qpred (i : Nat) (v : Bool)
  | vreg (c i : Nat) (v : Line)
  | ppred (c i : Nat) (v : BitVec 64)
  | ringLine (line : Nat) (v : Line)
  | tag (g : Nat) (v : BitVec 16)
  | accSeg (tile row seg : Nat) (v : Line)
  | omLine (slot line : Nat) (v : Line)
  | pattern (bank p : Nat) (v : Line)
  | format (i code : Nat)
  /-- the latch of sa (0) or sb (1); a cluster latch -/
  | slatch (u : Nat) (v : Word)
  | clatch (c u : Nat) (v : Line)
  /-- a line of the in-flight value store, and of the mask store, by descriptor (R384) -/
  | flight (k : Nat) (v : Line)
  | flightMask (k : Nat) (m : BitVec 64)
  /-- the value that stands at a station of a lane -/
  | laneValue (aw : Bool) (lane station : Nat) (v : Line)
  | pollen (k : Nat) (r : BitVec 128)
  | sysReg (n : Nat) (v : Word)
  | barrier (i v : Nat)
  | status (i : Nat) (v : Word)
  /-- the state of R173 and R174, the issue number and the gap remaining -/
  | pc (v : Nat)
  | depth (v : Nat)
  | level (i idx rem : Nat) (step : Int) (start fin : Nat)
  | bases (c rrb prb : Nat)
  | held (pos : Nat) (w : Word)
  | steps (pos : Nat) (sd sa sb : Int)
  | region (origin offset slack lag : Nat)
  | times (pt c0 : Nat)
  | progress (issueNo : Nat) (gap : Option Nat)
  /-- matrix small state: a slot's claim, a slot's and a tile's poison bit (R250) -/
  | claim (slot : Nat) (v : Bool)
  | slotPoison (slot : Nat) (v : Bool)
  | tilePoison (tile : Nat) (v : Bool)
  /-- the Hod's coder lanes, a word of the stream buffer by its position, a record by its index from the bottom, with its
  word position -/
  | hodLane (i : Nat) (v : BitVec 32)
  | hodWord (pos : Nat) (w : BitVec 16)
  | hodRec (k : Nat) (bits : BitVec 64) (pos : Nat)
  /-- the active bank of the Herringbone store (R214) -/
  | activeBank (v : Nat)
  /-- Hod small state: MODE as HSTAT numbers it, ℓ, TOP and BOT; how many records are held; the units of HBM and of the deep
  region (R276) -/
  | hodStack (mode ell top bot : Nat)
  | hodCount (n : Nat)
  | hodUnits (hbm deep : Nat)
  /-- child k of the children held, oldest first: its place, its state, its lanes and its records (R280, R282) -/
  | hodChild (k hdr idx state ell base ptr : Nat)
  | hodChildLane (k i : Nat) (v : BitVec 32)
  | hodChildRec (k i : Nat) (bits : BitVec 64) (pos : Nat)
  /-- operation k in flight in the Hod: when it is due, the lines it has still to tap, a line it has tapped (R288, R388) -/
  | hodOp (k due left : Nat)
  | hodOpLine (k i : Nat) (v : Line)
  /-- operation k in flight in the matrix engine: when it is due and what it has still to tap, a word or a line that it lands; a
  busy window (R388) -/
  | mxOp (k due left : Nat)
  | mxWord (k i : Nat) (v : BitVec 32)
  | mxLine (k i : Nat) (v : Line)
  | mxWindow (k kind index last : Nat)
  /-- timed command k held by the engines: a word, its start and its Course cycle, a line it has read (R388) -/
  | heldWord (k i : Nat) (v : Word)
  | heldTime (k start course : Nat)
  | heldLine (k i : Nat) (v : Line) (psn : Bool)
  /-- a frequency and the precision of a Hod table (R260) -/
  | hodFreq (t i f : Nat)
  | hodPrec (t k : Nat)
  deriving DecidableEq, Repr

/-- What the boundary brings of one granule: its bytes from lo on, n of them, whether the target returned them as poison, and what
they are where the target lies outside the package (R116, R125, R324). -/
structure Brought where
  lo : Nat
  n : Nat
  psn : Bool
  data : List (BitVec 8)
  deriving DecidableEq, Repr

/-- How a variable transfer ends: its code, and the offset of the fault (R125). -/
structure VarEnd where
  code : Nat
  off : Nat
  deriving DecidableEq, Repr

/-- A slip notice: the step tag and the rank that it names (R354). -/
structure Notice where
  tag : Nat
  rank : Nat
  deriving DecidableEq, Repr

/-- The package above in the tree of markers: its rank, its own Lm, and the longest latency measured on the edge, in sixteenths of a
cycle (R336, R340). -/
structure TreeParent where
  rank : Nat
  above : Nat
  lat : Nat
  deriving DecidableEq, Repr

/-- The first marker: its Course cycle, and the sixteenths of a cycle at which it arrives (R336, R340). -/
structure FirstMarker where
  m : Nat
  f : Nat
  deriving DecidableEq, Repr

/-- What memory initialisation brings: whether the bad-page list reads well, and the entries that the kernel writes into RANKTBL and
PATHTBL (R402). -/
structure MemoryTables where
  listOk : Bool
  ranks : List (Nat × Nat)
  paths : List (Nat × Nat × Nat)
  deriving DecidableEq, Repr

/-- One constructor for each row of spec/opcode_table.json. -/
inductive Instr where
  /-- BUNDLE_ISSUE (R32): A bundle is fetched and issues after its gap, repeat + 1 times, with its live slots writing their trigger latches. -/
  | bundleIssue (b : Nat)
  /-- RESULT_LANDING (R40): An issued operation lands its result in its destination and its unit's latch at t+L and enters any pollen record. -/
  | resultLanding (b ph : Nat)
  /-- B (R180): Relative branch to the bundle at PC plus a signed byte offset. -/
  | branch (o : CtlOp)
  /-- BR (R180): Branch to the offset held in a scalar register or latch. -/
  | branchReg (o : CtlOp)
  /-- CALL (R180): Branch to PC plus 8 times an offset and write the return offset to a scalar register at t+1. -/
  | call (o : CtlOp)
  /-- LOOP (R176): Push a counted loop level, or skip the body when the count is zero. -/
  | loop (o : CtlOp)
  /-- LBRK (R179): Leave n loop levels and continue after the END of the outermost one left. -/
  | lbrk (o : CtlOp)
  /-- SETSTEP (R181): Set the step vector of one slot position from t+1. -/
  | setstep (o : CtlOp)
  /-- ROT (R182): Advance the rotating register base and optionally the stage predicate base, writing a q predicate into the new p8. -/
  | rot (o : CtlOp)
  /-- ROTSET (R183): Set the rotating bases of the masked clusters and optionally clear p8 to p15. -/
  | rotset (o : CtlOp)
  /-- SETTLE (R45): A settle bundle waits to its offset from region start and issues, zeroing the lag and starting a new region, or raises course slip. -/
  | settle (o : CtlOp)
  /-- YIELD (R185): A yield bundle offers the task to its partition's arbiter with its stated run to the next yield. -/
  | yield (o : CtlOp)
  /-- DRIFT (R186): Withhold up to max Course cycles according to PHERR, freezing the brick and adding to LAG. -/
  | drift (o : CtlOp)
  /-- TRAP (R187): After the bundle's last issue, trap with fault 0x0F and save the code. -/
  | trap (o : CtlOp)
  /-- PPOP (R188): Pop the oldest pollen record into two scalar registers at t+2, or zeros when the queue is empty. -/
  | ppop (o : CtlOp)
  /-- END (R189): Stop issue, let operations in flight complete and wait for the variable queue to empty before the task ends. -/
  | endTask (o : CtlOp)
  /-- TASK_END (R189): Once the variable queue is empty after END, the task ends, its timelines stop and its bricks return to the arbiter. -/
  | taskEnd (t : Nat)
  /-- MOV.I64 (R192): Copy a scalar operand to a scalar register. -/
  | movI64 (o : SlotOp)
  /-- ADD.I64 (R192): Add two scalar operands modulo 2^64. -/
  | addI64 (o : SlotOp)
  /-- SUB.I64 (R192): Subtract two scalar operands modulo 2^64. -/
  | subI64 (o : SlotOp)
  /-- AND (R192): Bitwise AND of two scalar operands. -/
  | and (o : SlotOp)
  /-- OR (R192): Bitwise OR of two scalar operands. -/
  | or (o : SlotOp)
  /-- XOR (R192): Bitwise XOR of two scalar operands. -/
  | xor (o : SlotOp)
  /-- SHL (R192): Shift left by b mod 64. -/
  | shl (o : SlotOp)
  /-- SHR (R192): Logical shift right by b mod 64. -/
  | shr (o : SlotOp)
  /-- SAR (R192): Arithmetic shift right by b mod 64. -/
  | sar (o : SlotOp)
  /-- MIN.I64 (R192): Signed or unsigned minimum of two scalar operands. -/
  | minI64 (o : SlotOp)
  /-- MAX.I64 (R192): Signed or unsigned maximum of two scalar operands. -/
  | maxI64 (o : SlotOp)
  /-- MUL.I64 (R192): Low 64 bits of the product, landing at t+3. -/
  | mulI64 (o : SlotOp)
  /-- MULH.I64 (R192): High 64 bits of the signed or unsigned 128-bit product, landing at t+3. -/
  | mulhI64 (o : SlotOp)
  /-- CMPEQ.I64 (R193): Write a = b into a q predicate. -/
  | cmpeqI64 (o : SlotOp)
  /-- CMPNE.I64 (R193): Write a ≠ b into a q predicate. -/
  | cmpneI64 (o : SlotOp)
  /-- CMPLT.I64 (R193): Write a < b, signed or unsigned, into a q predicate. -/
  | cmpltI64 (o : SlotOp)
  /-- CMPLE.I64 (R193): Write a ≤ b, signed or unsigned, into a q predicate. -/
  | cmpleI64 (o : SlotOp)
  /-- QAND (R193): AND of two q predicates. -/
  | qand (o : SlotOp)
  /-- QOR (R193): OR of two q predicates. -/
  | qor (o : SlotOp)
  /-- QXOR (R193): XOR of two q predicates. -/
  | qxor (o : SlotOp)
  /-- QNOT (R193): NOT of a q predicate. -/
  | qnot (o : SlotOp)
  /-- BFX (R194): Extract a bit field of width b from position mod[5:0]. -/
  | bfx (o : SlotOp)
  /-- BFI (R194): Insert a bit field into the destination's old value. -/
  | bfi (o : SlotOp)
  /-- POPC (R192): Count the 1 bits of a. -/
  | popc (o : SlotOp)
  /-- CLZ (R192): Count the leading 0 bits of a. -/
  | clz (o : SlotOp)
  /-- LD (R195): Load 1 to 8 bytes of ring memory, extended, landing at t+3. -/
  | ld (o : SlotOp)
  /-- ST (R195): Store the low bytes of a into ring memory at t+3. -/
  | st (o : SlotOp)
  /-- MFSR (R197): Read a system register at the start of t and land it at t+1, clearing RC fields. -/
  | mfsr (o : SlotOp)
  /-- MTSR (R197): Write a system register at t+1, after every hardware update of that cycle. -/
  | mtsr (o : SlotOp)
  /-- WID (R198): Land a field of the work identifier at t+1. -/
  | wid (o : SlotOp)
  /-- VMOV (R205): Copy a vector operand per 32-bit lane. -/
  | vmov (o : SlotOp)
  /-- VAND (R205): Bitwise AND of two vector operands. -/
  | vand (o : SlotOp)
  /-- VOR (R205): Bitwise OR of two vector operands. -/
  | vor (o : SlotOp)
  /-- VXOR (R205): Bitwise XOR of two vector operands. -/
  | vxor (o : SlotOp)
  /-- VANDN (R205): Bitwise a and not b. -/
  | vandn (o : SlotOp)
  /-- VSHL.t (R205): Shift each integer element left. -/
  | vshlT (t : ETy) (o : SlotOp)
  /-- VSHR.t (R205): Shift each integer element right, arithmetic or logical. -/
  | vshrT (t : ETy) (o : SlotOp)
  /-- VADD.t (R205): Add integer elements, wrapping or saturating. -/
  | vaddT (t : ETy) (o : SlotOp)
  /-- VSUB.t (R205): Subtract integer elements, wrapping or saturating. -/
  | vsubT (t : ETy) (o : SlotOp)
  /-- VMIN.t (R205): Signed or unsigned minimum of integer elements. -/
  | vminT (t : ETy) (o : SlotOp)
  /-- VMAX.t (R205): Signed or unsigned maximum of integer elements. -/
  | vmaxT (t : ETy) (o : SlotOp)
  /-- VCMPEQ.t (R206): Compare integer elements for equality into a p predicate. -/
  | vcmpeqT (t : ETy) (o : SlotOp)
  /-- VCMPLT.t (R206): Compare integer elements for less-than into a p predicate. -/
  | vcmpltT (t : ETy) (o : SlotOp)
  /-- VCMPLE.t (R206): Compare integer elements for less-or-equal into a p predicate. -/
  | vcmpleT (t : ETy) (o : SlotOp)
  /-- VSEL (R206): Select each byte from a or b by a predicate. -/
  | vsel (o : SlotOp)
  /-- PAND (R206): AND of two p predicates. -/
  | pand (o : SlotOp)
  /-- POR (R206): OR of two p predicates. -/
  | por (o : SlotOp)
  /-- PXOR (R206): XOR of two p predicates. -/
  | pxor (o : SlotOp)
  /-- PNOT (R206): NOT of a p predicate. -/
  | pnot (o : SlotOp)
  /-- VADD.f (R208): Add F32 or BF16 elements, rounded to nearest even. -/
  | vaddF (bf : Bool) (o : SlotOp)
  /-- VSUB.f (R208): Subtract F32 or BF16 elements, rounded to nearest even. -/
  | vsubF (bf : Bool) (o : SlotOp)
  /-- VMIN.f (R208): Minimum of float elements with NaN and signed-zero rules. -/
  | vminF (bf : Bool) (o : SlotOp)
  /-- VMAX.f (R208): Maximum of float elements with NaN and signed-zero rules. -/
  | vmaxF (bf : Bool) (o : SlotOp)
  /-- VCMPEQ.f (R208): Compare float elements for equality into a p predicate. -/
  | vcmpeqF (bf : Bool) (o : SlotOp)
  /-- VCMPLT.f (R208): Compare float elements for less-than, with invalid on NaN. -/
  | vcmpltF (bf : Bool) (o : SlotOp)
  /-- VCMPLE.f (R208): Compare float elements for less-or-equal, with invalid on NaN. -/
  | vcmpleF (bf : Bool) (o : SlotOp)
  /-- VABS.f (R208): Clear the sign bit of each float element. -/
  | vabsF (bf : Bool) (o : SlotOp)
  /-- VCVT (R226): Convert one part of a register between two number formats. -/
  | vcvt (o : SlotOp)
  /-- VMUL.F32 (R209): Multiply F32 elements. -/
  | vmulF32 (o : SlotOp)
  /-- VMUL.BF16 (R209): Multiply BF16 elements. -/
  | vmulBf16 (o : SlotOp)
  /-- VFMA.F32 (R209): Fused a × b + d on F32 elements, rounded once. -/
  | vfmaF32 (o : SlotOp)
  /-- VFMA.BF16 (R209): Fused a × b + d on BF16 elements, rounded once. -/
  | vfmaBf16 (o : SlotOp)
  /-- VFMS.F32 (R209): Fused d − a × b on F32 elements, rounded once. -/
  | vfmsF32 (o : SlotOp)
  /-- VFMA.F64 (R209): Fused multiply-add on F64 lane pairs. -/
  | vfmaF64 (o : SlotOp)
  /-- VMUL.F64 (R209): Multiply F64 lane pairs. -/
  | vmulF64 (o : SlotOp)
  /-- VADD.F64 (R209): Add F64 lane pairs. -/
  | vaddF64 (o : SlotOp)
  /-- VMUL.I32 (R209): Low 32 bits of each lane product. -/
  | vmulI32 (o : SlotOp)
  /-- VMULH.I32 (R209): High 32 bits of each signed or unsigned lane product. -/
  | vmulhI32 (o : SlotOp)
  /-- VDOT.I8 (R209): Sum four I8 products per lane into the I32 destination. -/
  | vdotI8 (o : SlotOp)
  /-- VDOT.I16 (R209): Sum two I16 products per lane into the I32 destination. -/
  | vdotI16 (o : SlotOp)
  /-- VSHUF (R211): Shuffle the bytes of a by a Herringbone pattern of the active bank. -/
  | vshuf (o : SlotOp)
  /-- VHBSWAP (R211): Swap the active Herringbone bank from t+1. -/
  | vhbswap (o : SlotOp)
  /-- VHBLD (R211): Load a pattern of the inactive Herringbone bank at t+2. -/
  | vhbld (o : SlotOp)
  /-- VSHADD.I32 (R212): Shuffle a, then add b per I32 lane. -/
  | vshaddI32 (o : SlotOp)
  /-- VSHADD.F32 (R212): Shuffle a, then add b per F32 lane. -/
  | vshaddF32 (o : SlotOp)
  /-- VSHMAX.F32 (R212): Shuffle a, then take the F32 maximum with b. -/
  | vshmaxF32 (o : SlotOp)
  /-- VSHMIN.F32 (R212): Shuffle a, then take the F32 minimum with b. -/
  | vshminF32 (o : SlotOp)
  /-- VSHADD.BF16 (R212): Shuffle a, then add b per BF16 element. -/
  | vshaddBf16 (o : SlotOp)
  /-- VRCP.F32 (R213): Reciprocal of each F32 element, correctly rounded. -/
  | vrcpF32 (o : SlotOp)
  /-- VRSQ.F32 (R213): Reciprocal square root of each F32 element. -/
  | vrsqF32 (o : SlotOp)
  /-- VEXP2.F32 (R213): 2 to the power of each F32 element. -/
  | vexp2F32 (o : SlotOp)
  /-- VLOG2.F32 (R213): Base-2 logarithm of each F32 element. -/
  | vlog2F32 (o : SlotOp)
  /-- VDIV.F32 (R213): Divide F32 elements, landing at t+14. -/
  | vdivF32 (o : SlotOp)
  /-- VSQRT.F32 (R213): Square root of each F32 element, landing at t+14. -/
  | vsqrtF32 (o : SlotOp)
  /-- VXC (R214): Copy a register into another cluster, landing at t + 3 + distance. -/
  | vxc (o : SlotOp)
  /-- VTAP (R163): Write a lane value at the cluster's station into a vector register at t+1. -/
  | vtap (o : SlotOp)
  /-- VPUT (R164): Drive an operand onto a lane at the cluster's station at t+1. -/
  | vput (o : SlotOp)
  /-- MRD (R161): Read a ring line at t+1 and drive it onto a lane at t+3. -/
  | mrd (o : RingOp)
  /-- MWR (R161): Tap a lane at t and write the value into a ring line at t+3. -/
  | mwr (o : RingOp)
  /-- MRDT (R161): Check a granule's sequence tag, then read as MRD. -/
  | mrdt (o : RingOp)
  /-- MWRM (R161): Write a tapped lane value into one line of every block in a mask. -/
  | mwrm (o : RingOp)
  /-- MSTAG (R161): Set a granule's sequence tag at t+1. -/
  | mstag (o : RingOp)
  /-- CORRECTABLE_ERROR (R168): A correctable error found in a brick SRAM is corrected, counted and freezes the whole brick for 8 Course cycles. -/
  | correctableError (b : Nat)
  /-- FREEZE_END (R168): The freeze count expires and the brick resumes its plan time. -/
  | freezeEnd (b : Nat)
  /-- MMA (R245): Multiply two operand tiles into an accumulator tile, optionally accumulating, with chaining. -/
  | mma (o : SlotOp)
  /-- MMAT (R245): Form the role-swapped transposed product Aᵀ·B or A·Bᵀ into an accumulator tile. -/
  | mmat (o : SlotOp)
  /-- MZERO (R247): Zero an accumulator tile and clear its poison at t+1. -/
  | mzero (o : SlotOp)
  /-- MDRAIN (R248): Convert an accumulator into an operand tile, optionally corner-turned, at t+70. -/
  | mdrain (o : SlotOp)
  /-- MCLAIM (R239): Claim an operand-memory slot at t+1. -/
  | mclaim (o : SlotOp)
  /-- MREL (R239): Release an operand-memory slot and zero it at t+1. -/
  | mrel (o : SlotOp)
  /-- MOML (R240): Fill an operand slot from 1, 2 or 4 lanes at the matrix port over 128 ÷ w cycles. -/
  | moml (o : SlotOp)
  /-- APRD (R242): Read an accumulator row segment and drive it onto a lane at t+4. -/
  | aprd (o : ApOp)
  /-- APWR (R242): Write a tapped lane value into an accumulator row segment at t+4. -/
  | apwr (o : ApOp)
  /-- APADD (R242): Add a tapped lane value into an accumulator row segment at t+6. -/
  | apadd (o : ApOp)
  /-- HOPEN (R271): Open a root Hod stack with ℓ lanes, latching and translating its spill regions. -/
  | hopen (o : HdOp)
  /-- HOPEN.CHILD (R271): Open the Hod as a child of a split on another brick. -/
  | hopenChild (o : HdOp)
  /-- HPUSH (R273): Tap a tile from a lane and code it onto the Hod stack. -/
  | hpush (o : HdOp)
  /-- HPUSH_RECORD (R273): The coded tile's words and TILE record land on the stack, or the stream buffer overflows. -/
  | hpushRecord (b : Nat)
  /-- HPOP (R274): Check the top record and decode its tile into a shadow state, reserving the lane. -/
  | hpop (o : HdOp)
  /-- HPOP_COMMIT (R274): At D the pop's checks are made and it commits, driving the tile onto the lane, or faults. -/
  | hpopCommit (b : Nat)
  /-- HMARK (R277): Push the lane states and a MARK record and reset the lanes. -/
  | hmark (o : HdOp)
  /-- HMARK.DROP (R277): Pop a MARK's saved lane states back into the lanes. -/
  | hmarkDrop (o : HdOp)
  /-- HCUT (R278): Discard every record above the newest mark and drop the mark. -/
  | hcut (o : HdOp)
  /-- HSPLIT (R279): Push a SPLIT block for child stacks and enter split-wait. -/
  | hsplit (o : HdOp)
  /-- HSEAL (R280): Seal a child stack and send it as a variable command to the parent brick. -/
  | hseal (o : HdOp)
  /-- CHILD_ARRIVAL (R280): A sealed child's words land above the parent's SPLIT block and fill its child entry, or the entry is marked failed. -/
  | childArrival (b : Nat)
  /-- HJOIN (R281): Wait until every child entry has arrived or failed, then return to root mode. -/
  | hjoin (o : HdOp)
  /-- HJOIN_TIMEOUT (R281): An HJOIN wait longer than 2^20 cycles raises fault 0x11. -/
  | hjoinTimeout (b : Nat)
  /-- HTBL (R275): Load a Hod frequency table from 8 lanes at t+2. -/
  | htbl (o : HdOp)
  /-- HSTAT (R276): Drive a line describing the Hod state onto a lane at t+2. -/
  | hstat (o : HdOp)
  /-- HFLUSH.DOWN (R286): Move the lowest HBM units of the stack to the deep region as a variable command. -/
  | hflushDown (o : HdOp)
  /-- HFLUSH.UP (R286): Move the top deep units back into HBM as a variable command. -/
  | hflushUp (o : HdOp)
  /-- HCLOSE (R272): Close an empty root Hod after checking its state. -/
  | hclose (o : HdOp)
  /-- HCLOSE.DISCARD (R272): Close the Hod from any mode but sealing, dropping every word, record and unit. -/
  | hcloseDiscard (o : HdOp)
  /-- HOD_WINDOW (R285): At each 64-cycle Hod window a brick spills, refills, serves an HFLUSH or idles. -/
  | hodWindow (b : Nat)
  /-- CPY (R139): Accept a timed copy between ring, Yard, HBM takes and write-buffer entries, starting at plan cycle P. -/
  | cpy (o : EnOp)
  /-- CPYM (R138): Accept a timed copy into a multicast window. -/
  | cpym (o : EnOp)
  /-- CPYD (R150): Accept a timed copy that decompresses a block into ring memory. -/
  | cpyd (o : EnOp)
  /-- CPYV (R152): Accept a variable copy to or from a variable target. -/
  | cpyv (o : EnOp)
  /-- COPY_BEAT (R143): A copy-engine beat reads source lines or takes incoming HBM or link lines. -/
  | copyBeat (b : Nat)
  /-- COPY_LINE_WRITE (R143): A copied line performs at its destination cycle. -/
  | copyLineWrite (b : Nat)
  /-- LSEND (R344): Accept a timed send of ring lines to a remote brick arriving at A_out. -/
  | lsend (o : EnOp)
  /-- LRECV (R344): Accept a timed take of an incoming flit into ring memory. -/
  | lrecv (o : EnOp)
  /-- CRED.F32 (R348): Reduce an incoming F32 line into a local one with stochastic rounding. -/
  | credF32 (o : EnOp)
  /-- CRED.BF16 (R348): Reduce an incoming BF16 line into a local one with stochastic rounding. -/
  | credBf16 (o : EnOp)
  /-- CBCAST (R344): Take incoming lines, optionally write them and forward them. -/
  | cbcast (o : EnOp)
  /-- CGATH (R344): Append incoming lines to local lines and forward them. -/
  | cgath (o : EnOp)
  /-- SENDER_READY_CHECK (R347): At D − 10 a flit whose lines are not ready is not sent and the sender takes course slip. -/
  | senderReadyCheck (b : Nat)
  /-- FLIT_DEPARTURE (R341): A flit departs on its port slot at D. -/
  | flitDeparture (b : Nat)
  /-- FLIT_ARRIVAL (R346): A flit reaches the receiver's landing buffer, is identified and CRC-checked. -/
  | flitArrival (f : Flit)
  /-- NAK_ARRIVAL (R346): A NAK reaches the sender, which schedules the retry. -/
  | nakArrival (rank aOut : Nat)
  /-- FLIT_RETRY (R346): The sender sends a NAKed critical flit again in its retry slot at D + Rt. -/
  | flitRetry (b : Nat)
  /-- AADD.I32 (R298): Atomic I32 add into an HBM line in the write queue. -/
  | aaddI32 (o : EnOp)
  /-- AADD.F32 (R298): Atomic F32 add into an HBM line. -/
  | aaddF32 (o : EnOp)
  /-- AADD.BF16 (R298): Atomic BF16 add through an FP32 shadow. -/
  | aaddBf16 (o : EnOp)
  /-- AMAX.I32 (R298): Atomic signed I32 maximum. -/
  | amaxI32 (o : EnOp)
  /-- AMAX.F32 (R298): Atomic F32 maximum. -/
  | amaxF32 (o : EnOp)
  /-- AMIN.I32 (R298): Atomic signed I32 minimum. -/
  | aminI32 (o : EnOp)
  /-- AMIN.F32 (R298): Atomic F32 minimum. -/
  | aminF32 (o : EnOp)
  /-- AXOR (R298): Atomic XOR of 512 bits. -/
  | axor (o : EnOp)
  /-- AROWADD (R301): Add BF16 lines to a row and raise its version. -/
  | arowadd (o : EnOp)
  /-- ROWLD (R302): Accept a read of a row and its version, counting stale reads. -/
  | rowld (o : EnOp)
  /-- ROWLDF (R302): Accept a fresh read of a row that applies pending entries. -/
  | rowldf (o : EnOp)
  /-- ATOMIC_ENTRY (R297): An atomic or row command enters its channel queue at P + 12, merging into or opening an entry and claiming its slot. -/
  | atomicEntry (b : Nat)
  /-- ATOMIC_APPLICATION (R298): At S an entry reads its block, applies the merged operations, writes it and updates the version. -/
  | atomicApplication (ch : Nat)
  /-- ROW_READ (R302): At S a row read reads the row and version and writes them with a header into ring memory. -/
  | rowRead (b : Nat)
  /-- UPD (R308): Accept a clipped optimizer update of a weight shard in ring memory. -/
  | upd (o : EnOp)
  /-- UPD_START (R309): At P the UPD checks the norm and tag, reads its parameter line and updates each group. -/
  | updStart (b : Nat)
  /-- UNORM (R307): Form a gradient shard's sum of squares into a ring line. -/
  | unorm (o : EnOp)
  /-- AWAIT (R131): Freeze the brick until a rotating barrier's pending count is zero, then issue. -/
  | await (o : EnOp)
  /-- FENCEV (R132): Order later variable writes after earlier ones without waiting. -/
  | fencevOrder (o : EnOp)
  /-- FENCEV (R132): Wait until every earlier variable write has performed, then issue. -/
  | fencevDone (o : EnOp)
  /-- VSTAT (R133): Copy a variable status word to a scalar register and optionally clear it. -/
  | vstat (o : EnOp)
  /-- VARIABLE_GRANULE (R128): The last byte of a destination granule performs and the granule takes the command's tag. -/
  | variableGranule (b v g : Nat) (d : Brought)
  /-- VARIABLE_DONE (R125): A variable transfer ends, setting DONE, ERR and dropping its barrier's count. -/
  | variableDone (b v : Nat) (e : VarEnd)
  /-- PAGE_FAULT (R126): A variable transfer meets a page fault, pauses and posts a record to the Mason. -/
  | pageFault (b v code off : Nat)
  /-- COMPLETION_TIMEOUT (R126): A target that does not answer within 2^20 cycles ends the transfer with code 5. -/
  | completionTimeout (b v : Nat)
  /-- VPRESP_RESUME (R126): The Mason resumes a paused transfer from the faulting page. -/
  | vprespResume (b v : Nat)
  /-- VPRESP_ABORT (R126): The Mason aborts a paused transfer with code 8. -/
  | vprespAbort (b v : Nat)
  /-- ACT (R83): Open a logical row of a bank through the indirection table and count it. -/
  | act (b r s : Nat)
  /-- RD (R83): Read a block of the open row onto the read-return path at C + 48. -/
  | rd (b c : Nat)
  /-- WR (R83): Write a block from a write-buffer entry with no Bond delta. -/
  | wr (b c e : Nat)
  /-- WRB (R99): Read the old block, write the new one and enqueue a parity delta. -/
  | wrb (b c e : Nat)
  /-- WRS (R102): Write one block of a full-stripe write set, or its parity. -/
  | wrs (b c e p : Nat)
  /-- RDX (R109): Read a stack's block of an RDX set that reconstructs the lost block. -/
  | rdx (b c : Nat)
  /-- PRE (R83): Close a bank's row. -/
  | pre (b : Nat)
  /-- REF (R83): Refresh a bank, or all banks of the channel. -/
  | ref (b a : Nat)
  /-- RSW (R92): Reserve a bank for one row move of a retirement or hot row. -/
  | rsw (b : Nat)
  /-- GAP (R83): Idle count + 1 owned cycles. -/
  | gap (n : Nat)
  /-- SYNC (R83): Wait for a frame cycle and issue there. -/
  | sync (f : Nat)
  /-- PARITY_APPLICATION (R101): At S a parity entry reads the parity block and writes it XOR the merged delta. -/
  | parityApplication (ch : Nat)
  /-- CLOSING_PRE (R85): The controller closes a stopped task's open bank at the earliest cycle allowed. -/
  | closingPre (ch : Nat)
  /-- IDLE_REFRESH (R88): At the first cycle of an idle column the controller issues an all-bank REF where needed. -/
  | idleRefresh (ch : Nat)
  /-- REFRESH_MISS (R87): At a frame's last cycle an unrefreshed bank is counted, recorded and may fault or crack. -/
  | refreshMiss (ch : Nat)
  /-- READ_RETURN_DROP (R89): A block no command took is dropped when its 64-cycle hold ends. -/
  | readReturnDrop (ch : Nat)
  /-- TIMELINE_STOP (R81): After END a task's timelines stop at the end of the current run. -/
  | timelineStop (t : Nat)
  /-- LOSS_EVENT (R105): A bank is cracked or a stack stops answering, discarding parity entries and faulting timeline tasks. -/
  | lossEvent (stack : Nat) (one : Option (Nat × Nat))
  /-- RBMARK_WRITE (R110): The Mason starts the rebuild of a lost bank at its first stripe. -/
  | rbmarkWrite (ch v : Nat)
  /-- BPLADD_WRITE (R94): Append a bad-page entry and queue a retirement for the bank's next RSW. -/
  | bpladdWrite (stack ch bank row : Nat)
  /-- FAQPOP_READ (R96): Return and remove the oldest fault-address queue entry. -/
  | faqpopRead (upper : Bool)
  /-- TORNPOP_READ (R115): Return and remove the oldest torn-mark report. -/
  | tornpopRead (upper : Bool)
  /-- YDCECNT_READ (R136): Return and clear a die's corrected Yard word count. -/
  | ydcecntRead (die : Nat)
  /-- LNKRETRY_READ (R409): Return and clear a UALink port's retry and failure counts. -/
  | lnkretryRead (port : Nat)
  /-- ADMIT_READ (R406): Return an admission table and clear its TXDENY count. -/
  | admitRead (n : Nat)
  /-- FCOL_WRITE (R78): Set a partition's frame columns, refused if a column would have two owners. -/
  | fcolWrite (k v : Nat)
  /-- HODCOL_WRITE (R283): Set a partition's Hod columns, refused outside its frame columns. -/
  | hodcolWrite (k v : Nat)
  /-- SAVCOL_WRITE (R393): Set a partition's save columns, refused when a full switch could not complete. -/
  | savcolWrite (k v : Nat)
  /-- RANGE_ENTRY_WRITE (R119): The Mason writes a range entry, refused while in use or reaching the save area. -/
  | rangeEntryWrite (k i r v : Nat)
  /-- MCWIN_WRITE (R137): The Mason writes a multicast window, refused while its owner has a task or outside OWNER. -/
  | mcwinWrite (die w v : Nat)
  /-- PARTITION_CHANGE (R27): The Mason changes a partition's brick membership, refused while it holds a resident task. -/
  | partitionChange (k : Nat) (bricks : List Nat)
  /-- REGISTER_WRITE (R11): A write to a register with no behaviour of its own stores its RW fields and clears W1C bits. -/
  | registerWrite (agent : Nat) (r : MasonReg) (v : Nat)
  /-- DREREL_MARKER (R336): A marker arrives, sets Φ, is forwarded and may raise course slip on phase overflow. -/
  | drerelMarker (m f : Nat)
  /-- MARKER_LOSS (R355): A neighbour's markers missing for two periods makes the package send an all-steps slip notice. -/
  | markerLoss (rank : Nat)
  /-- LINK_LOSS (R355): A UALink port loses its link and the package sends an all-steps slip notice naming the neighbour. -/
  | linkLoss (port rank : Nat)
  /-- SLIP_NOTICE (R354): A slip notice arrives, fencing the rank and slipping matching tasks. -/
  | slipNotice (up : Bool) (n : Notice)
  /-- PATH_CALIBRATION (R340): At domain formation the Mason probes paths, sets PATHTBL and Lm and sets CT at the first marker. -/
  | pathCalibration (paths : List (Nat × Nat × Nat)) (parent : TreeParent) (first : FirstMarker)
  /-- LAUNCH (R366): A launch message is checked and accepted or refused with one residency report. -/
  | launch (port : Nat) (ws : List (BitVec 64))
  /-- PREEMPTION_REQUEST (R374): A request naming a running task forces its pre-emption, or is refused. -/
  | preemptionRequest (port : Nat) (ws : List (BitVec 64))
  /-- SLICE_BOUNDARY (R370): At each slice boundary queue miss counts update and idle bricks are offered. -/
  | sliceBoundary (k : Nat)
  /-- TAKE_POINT (R373): At S − 16,896 a timed launch is dropped or pre-empts the tasks on its bricks. -/
  | takePoint (t : Nat)
  /-- FORCED_PREEMPTION (R375): The brick stops at the first bundle boundary after T, and the task parks or takes course slip. -/
  | forcedPreemption (b : Nat)
  /-- TASK_START (R371): A chosen task makes its first issue after the fixed switch, or at C=S for a timed start. -/
  | taskStart (t : Nat)
  /-- TRAP_POINT (R379): A delivered fault stops the brick at its trap point, writes descriptors and FLTREC and signals the Mason. -/
  | trapPoint (b : Nat)
  /-- BRKCTL_RESUME (R391): The Mason resumes a trapped brick at w + 4, delivering pending faults first. -/
  | brkctlResume (b : Nat)
  /-- BRKCTL_END (R391): The Mason ends the task, discarding in-flight work and stopping its timelines. -/
  | brkctlEnd (b : Nat)
  /-- BRKCTL_PARK (R391): The Mason parks a task that is not bound at the head of its queue. -/
  | brkctlPark (b : Nat)
  /-- RESET (R400): Reset starts power-up: ROM, firmware verification and calibration. -/
  | reset (img : Firmware)
  /-- MEMORY_INITIALISATION (R402): Bad pages are mapped, every block is zeroed with WRS sets and parity is laid, then READY is set. -/
  | memoryInitialisation (t : MemoryTables)
  /-- HSEM_READ (R404): A read of HSEM acquires it when free, with same-cycle ties resolved by TIE. -/
  | hsemRead (agents : List Nat)
  /-- HSEM_WRITE (R404): The owner's write of 0 releases HSEM. -/
  | hsemWrite (agent v : Nat)
  /-- POWER_FRAME (R407): At each frame the power clamp compares measured power with LIMIT and sets level 1. -/
  | powerFrame (watts : Nat)
  /-- CLAMP_HALT (R407): Excess power, coolant or junction temperature halts the arithmetic clock and the package acts as lost. -/
  | clampHalt (inlet flow junction : Nat)
  /-- FLIT_ABSENT (R346): At arrival cycle A the receiver finds that a critical flit it expects is absent, counts it as failed and sends a NAK at A + 1. -/
  | flitAbsent (b : Nat)
  /-- RETRY_SLOT_END (R346): When no NAK has come, the sender releases a critical flit from its retry store at D + Rt, and the command leaves the held timed copies when its retry slot ends. -/
  | retrySlotEnd (b : Nat)
  /-- STATE_WINDOW_WRITE (R390): The Mason writes a trapped brick's resumable state through its state window, and the write performs at once and prevails over a same-cycle fill-port write. -/
  | stateWindowWrite (b : Nat) (e : WindowEdit)
  /-- SAVEBASE_WRITE (R393): The Mason sets SAVEBASE, and the write is refused when a full switch of the partition could not complete in 8,320 cycles. -/
  | savebaseWrite (v : Nat)
  /-- MEASUREMENT_EXTEND (R408): The kernel extends one of measurement registers 2 to 7 as M := SHA3-256(M ‖ value). -/
  | measurementExtend (i : Nat) (v : BitVec 256)
  /-- TAKE_WINDOW_END (R345): A held flit is dropped from the landing buffer at the end of its take window. -/
  | takeWindowEnd
  /-- VPINV (R124): A write invalidates the variable engines' cached translations. -/
  | vpinv
  /-- PREA (R83): Close every open bank of the channel. -/
  | prea
  /-- COURSE_CYCLE_TICK (R334): A PLL tick becomes a Course cycle advancing CT, unless it is held. -/
  | courseCycleTick
  /-- DREREL_MARKER_SEND (R336): The root sends a Drerel marker at every reference cycle that is a multiple of 4,096. -/
  | drerelMarkerSend
  /-- ADMLOCK_WRITE (R406): Setting ADMLOCK locks the admission tables until reset. -/
  | admlockWrite
  /-- ATTGO (R408): A host write of 1 makes the Mason return a signed attestation report. -/
  | attgo
  deriving DecidableEq, Repr

end Sys2Proof
end

