-- ==== Sys2Proof/Machine/State.lean ====
section
/-! DEFINITION. The state of one Rhotor package as plain data: every brick, channel, partition, task and register the
spec names, the operations still due, and what the outside world will do (State.inputs) and was told (State.out).
INVENTORY.md lists each piece with its rule and its reset value. -/

namespace Sys2Proof.Machine

/-- The floating-point events of one issue (R207). -/
structure Events where
  inv : Bool
  dz : Bool
  ovf : Bool
  unf : Bool
  deriving DecidableEq, Repr

def Events.none : Events := ⟨false, false, false, false⟩

/-- Where a deferred effect of an issued operation goes (R40, R158, R161, R242, R316). Register numbers are physical. -/
inductive Dest where
  /-- a vector register (R200) -/
  | vreg (c r : Nat)
  /-- a cluster predicate (R201) -/
  | ppred (c i : Nat)
  /-- a scalar register -/
  | sreg (r : Nat)
  /-- a scalar predicate -/
  | qpred (i : Nat)
  /-- a system register, by MTSR (R197) -/
  | sys (n : Nat)
  /-- a Herringbone pattern (R211) -/
  | pattern (bank p : Nat)
  /-- the change of the active Herringbone bank (R211) -/
  | bankSwap
  /-- an operand slot's claim (R239) -/
  | claim (slot : Nat)
  /-- an operand slot's release (R239) -/
  | release (slot : Nat)
  /-- a drive onto a lane (R153) -/
  | drive (aw : Bool) (lane station : Nat)
  /-- the bundle-port read of MRD and MRDT, and the plan cycle of its drive (R161) -/
  | readLine (aw : Bool) (lane station block line fin : Nat)
  /-- the bundle-port read of LD: address, size code, zero extension, destination, landing cycle (R195) -/
  | readWord (addr size : Nat) (zx : Bool) (r fin : Nat)
  /-- the bundle-port read of a narrow ST, and the cycle of its write (R158, R167) -/
  | readStore (addr size fin : Nat)
  /-- a line write into one line of each block of a mask (R161) -/
  | ringLine (blocks line : Nat)
  /-- a scalar store (R195) -/
  | ringStore (addr size : Nat)
  /-- a granule's sequence tag (R161) -/
  | tag (g : Nat)
  /-- APWR (false) or APADD (true) into a row segment (R242) -/
  | accSeg (add : Bool) (tile row seg : Nat)
  /-- MZERO (R247) -/
  | accZero (tile : Nat)
  deriving DecidableEq, Repr

/-- A deferred effect: the plan count it is due at, who issued it, and the value it carries (R40, R384). -/
structure Flight where
  due : Nat
  slot : Nat
  pc : Nat
  issue : Nat
  dest : Dest
  latch : Bool
  value : Line
  mask : BitVec 64
  ev : Events
  evMask : BitVec 64
  deriving DecidableEq, Repr

/-- A value on a lane, driven at a station at a plan count; no data while the drive is only scheduled (R153, R154). -/
structure LaneVal where
  aw : Bool
  lane : Nat
  station : Nat
  clk : Nat
  data : Option Line
  deriving DecidableEq, Repr

/-- One loop level (R173, R175). -/
structure Loop where
  idx : Nat
  rem : Nat
  step : Int
  start : Nat
  fin : Nat
  deriving DecidableEq, Repr

/-- A level that no LOOP has pushed. -/
def Loop.zero : Loop := ⟨0, 0, 0, 0, 0⟩

/-- The step vector of a slot (R43). -/
structure Steps where
  sd : Int
  sa : Int
  sb : Int
  deriving DecidableEq, Repr

/-- The sequencer (R173, R174) and the progress of its current bundle (R32). -/
structure Seq where
  pc : Nat
  depth : Nat
  /-- levels 0 to 5; a level not listed is all zero -/
  loops : Table Loop
  rrb : Table Nat
  prb : Table Nat
  held : Table Word
  steps : Table Steps
  /-- Course cycle of the region's start (R45) and of the task's first issue (R174) -/
  origin : Nat
  c0 : Nat
  /-- O and S of the settle bundle that closes the open region, from the cycle it is reached (R45, R184) -/
  offset : Nat
  slack : Nat
  lag : Nat
  /-- plan time (R174) -/
  pt : Nat
  /-- unfrozen cycles since the first issue: the clock of every remaining count (R174) -/
  clk : Nat
  /-- gap cycles still to pass before the bundle's first issue; none before its fetch (R32) -/
  gapLeft : Option Nat
  /-- number of the next issue of the bundle at pc (R379) -/
  issueNo : Nat
  /-- the bundle issued last was a settle bundle (R47) -/
  afterSettle : Bool
  /-- the waiting settle bundle's arrival (R45) -/
  arrived : Option Nat
  /-- END has issued (R189) -/
  ended : Bool
  /-- the region's first issue is still to come (R45) -/
  opening : Bool
  deriving DecidableEq, Repr

/-- Scalar registers, predicates and the latches of sa and sb (R173). -/
structure Scalars where
  s : Table Word
  q : Table Bool
  latch : Table Word
  /-- registers with an uncorrectable error (R168, R204) -/
  ue : List Nat
  deriving DecidableEq, Repr

/-- The clusters: registers by cluster * 1024 + physical index, predicates by cluster * 16 + index, latches by cluster * 3
+ unit (R200, R201), the Herringbone store by bank * 64 + pattern (R210). A predicate or a pattern not listed holds its
task-start value: zero, the identity. -/
structure Vectors where
  v : Table Line
  p : Table (BitVec 64)
  latch : Table Line
  patterns : Table Line
  activeBank : Nat
  /-- entries with an uncorrectable error (R204): cluster * 1024 + register, 8192 + cluster * 16 + predicate,
  8320 + bank * 64 + pattern -/
  ue : List Nat
  deriving DecidableEq, Repr

/-- Ring memory with its protection state, the sequence tags, the lanes and the port claims (R153 to R167). -/
structure Ring where
  mem : List Host.Cell
  /-- lines whose poison bit is set (R166) -/
  poison : List Nat
  /-- 64-bit words with a correctable, and with an uncorrectable, error (R167) -/
  ce : List Nat
  ue : List Nat
  /-- sequence tags; a granule not listed holds 0xFFFF (R128) -/
  tags : Table (BitVec 16)
  lanes : List LaneVal
  /-- bundle-port accesses claimed: block and plan count (R158) -/
  ports : List (Nat × Nat)
  deriving DecidableEq, Repr

/-- A busy window of a tile or slot (R249): kind 0 in flight, 1 draining, 2 write pending, 3 read, 4 filling. -/
structure Window where
  kind : Nat
  index : Nat
  last : Nat
  deriving DecidableEq, Repr

/-- An array operation or MOML in flight (R245, R248, R240). -/
structure MxFlight where
  due : Nat
  opc : Nat
  dst : Nat
  fmt : Nat
  /-- the words that land in the tile or tiles, or the lines that land in the slots -/
  words : List (BitVec 32)
  lines : List Line
  /-- MOML: direction, first lane, lanes, line steps still to tap -/
  aw : Bool
  lane : Nat
  width : Nat
  left : Nat
  poison : Bool
  superseded : Bool
  ev : Events
  rows : BitVec 64
  pc : Nat
  issue : Nat
  deriving DecidableEq, Repr

/-- The matrix engine (R238 to R253): operand memory by bytes (slot * 8192 + byte), accumulators by words
(tile * 4096 + row * 64 + column). -/
structure Matrix where
  om : List Host.Cell
  claim : List Nat
  omPoison : List Nat
  acc : Table (BitVec 32)
  accPoison : List Nat
  flights : List MxFlight
  windows : List Window
  /-- the last array operation issued: opcode, dst, format, plan count of its landing (R246) -/
  last : Option (Nat × Nat × Nat × Nat)
  /-- plan counts before which no array operation, and no MOML, may issue (R71) -/
  arrayFree : Nat
  momlFree : Nat
  /-- operand-memory and accumulator words with an uncorrectable error: slot byte / 8, tile word / 2 (R252) -/
  omUe : List Nat
  accUe : List Nat
  deriving DecidableEq, Repr

/-- MODE of the Hod unit (R260). -/
inductive HodMode where
  | closed
  | root
  | splitWait
  | child
  | sealing
  deriving DecidableEq, Repr

/-- A Hod record and the position at which its words begin (R260, R267). -/
structure HodRec where
  bits : BitVec 64
  pos : Nat
  deriving DecidableEq, Repr

/-- A child of a SPLIT block: the position of the block's header, its index, its state (0 not arrived, 1 arrived, 2 failed),
its coder lanes and records, the positions that its words start at and that its next word to pop lies below (R280, R282). -/
structure HodChild where
  hdr : Nat
  idx : Nat
  state : Nat
  ell : Nat
  lanes : List (BitVec 32)
  recs : List HodRec
  base : Nat
  ptr : Nat
  /-- nothing has been popped from it -/
  fresh : Bool
  deriving DecidableEq, Repr

/-- The part of the Hod's state that its operations change in issue order (R260, R270). Words from TOP - 1 down to BOT;
records top first. -/
structure HodCore where
  mode : HodMode
  ell : Nat
  lanes : List (BitVec 32)
  words : List (BitVec 16)
  top : Nat
  bot : Nat
  recs : List HodRec
  children : List HodChild
  /-- positions of words that were read back with an error, or lost (R274, R287) -/
  bad : List Nat
  deriving DecidableEq, Repr

/-- A Hod operation in flight (R270): its hd opcode, what it latched at issue, the lines tapped so far. Its effect on the
stack is applied over those issued before it; it leaves the list once it is due and all before it have left. -/
structure HodFlight where
  due : Nat
  opc : Nat
  op : HdOp
  fmt : Nat
  freqs : List Nat
  prec : Nat
  /-- lines of the tile, and lines still to tap -/
  lt : Nat
  left : Nat
  lines : List Line
  /-- the child that a pop of a SPLIT block takes from (R282) -/
  child : Option Nat
  /-- the plan count of the issue (R270) -/
  clk : Nat
  /-- the words that a cut to a mark below BOT finds in the units held, from the foot of the mark's unit, with their errors
  (R278) -/
  held : List (BitVec 16 × Bool)
  pc : Nat
  issue : Nat
  /-- opcode 13: the sealed child that arrived while operations before its HSPLIT were in flight, its words in `held`; none where its entry
  failed (R280) -/
  kid : Option HodCore := none
  deriving DecidableEq, Repr

/-- What a Hod window does (R285, R286). -/
inductive WinKind where
  | spill
  | refill
  | down
  | up
  deriving DecidableEq, Repr

/-- A window under way: its first Course cycle, the first of its units and their number, the lines that its reads have brought,
whether it runs the Cracked pattern, and whether it moves nothing more: its units have moved, or a loss event or a cut has stopped all
but its PREs (R278, R284, R285, R287). -/
structure HodWin where
  start : Nat
  kind : WinKind
  first : Nat
  n : Nat
  lines : List (Line × Bool)
  cracked : Bool
  stopped : Bool
  deriving DecidableEq, Repr

/-- An HFLUSH outstanding: up or down, its units, its status word, the first of its units, and how many of them are still held where it
takes them from (R278, R285, R286). -/
structure HodFlush where
  up : Bool
  units : Nat
  vs : Nat
  first : Nat
  live : Nat
  deriving DecidableEq, Repr

/-- The Hod unit (R260 to R289). -/
structure Hod where
  core : HodCore
  flights : List HodFlight
  /-- frequency tables: 256 frequencies and the precision; a table not listed is all zero with k = 12 (R260) -/
  tables : Table (List Nat × Nat)
  /-- latched at HOPEN (R271) -/
  cfg : Word
  /-- tag of the split whose child this is (R280) -/
  splitTag : Nat
  /-- HBM and package addresses of the spill regions after translation -/
  hbmBase : Nat
  deepBase : Nat
  /-- the deep region's addresses are variable virtual addresses (R119, R122) -/
  deepPaged : Bool
  hbmUnits : Nat
  deepUnits : Nat
  lost : List Nat
  /-- an outstanding HFLUSH; the bytes of its staging, and the staged lines that are poisoned (R286) -/
  flush : Option HodFlush
  staged : List Byte
  stagedBad : List Nat
  /-- the window under way (R284) -/
  win : Option HodWin
  /-- plan counts before which no coder operation (R71), and no Hod operation at all (R271), may issue -/
  coderFree : Nat
  openUntil : Nat
  /-- Course cycles HJOIN has waited (R281) -/
  joinWait : Nat
  /-- lines of committed pops still to drive: plan count, lane, data (R274) -/
  drives : List (Nat × Bool × Nat × Line)
  /-- one more than the plan count of the last late fault: an operation that issues on that count is cancelled (R270) -/
  deadAt : Nat
  deriving DecidableEq, Repr

/-- One line's pending operation in an atomic entry (R294, R298): class, accumulators by element. -/
structure LineOp where
  cls : Nat
  acc : List Nat
  deriving DecidableEq, Repr

/-- A line a timed command has read: its number, its data, its poison, the plan count it reaches the engine at. -/
structure Fetched where
  k : Nat
  data : Line
  poison : Bool
  at' : Nat
  deriving DecidableEq, Repr

/-- Line k of a CRED, summed and rounded once: the result, its events, the elements that raised one (R348, R350). -/
structure Summed where
  k : Nat
  data : Line
  ev : Events
  count : Nat
  /-- element 0 raised an event -/
  first : Bool
  deriving DecidableEq, Repr

/-- A timed command held by the copy engine (R142, R295, R342): opcode, the three register words, its start. -/
structure Held where
  opc : Nat
  w0 : Word
  w1 : Word
  w2 : Word
  /-- the start as a plan count, and P itself -/
  p : Nat
  start : Nat
  /-- plan count of the last occupied cycle, and of the last effect -/
  occ : Nat
  fin : Nat
  got : List Fetched
  /-- lines that reach the engine later than this count are dropped (R136); cancelled by a late fault -/
  stop : Option Nat
  cancelled : Bool
  /-- Course cycles: of application or departure; entered or departed yet -/
  course : Nat
  done : Bool
  nak : Bool
  /-- translated target address -/
  target : Nat
  part : Nat
  /-- events of the command so far: flags, per-line mask, elements, first group -/
  ev : Events
  evLines : Nat
  evCount : Nat
  evGroup : Option Nat
  /-- ROWLDF: the pending operation on the version word's line as it stood at S (R302) -/
  snap : Option LineOp
  /-- the lines of a CRED that have been summed (R348) -/
  sums : List Summed
  pc : Nat
  issue : Nat
  deriving DecidableEq, Repr

/-- The last write of a transfer through one DMA window of a host port: its address, its offset in the transfer, and whether the
read behind it is on its way (R132, R405). -/
structure PortWrite where
  port : Nat
  win : Nat
  addr : Nat
  off : Nat
  sent : Bool
  deriving DecidableEq, Repr

/-- A variable command (R125, R126): opcode, words, status word, barrier, FENCEV epoch, granules performed. -/
structure VCmd where
  opc : Nat
  w0 : Word
  w1 : Word
  w2 : Word
  vs : Nat
  bar : Nat
  epoch : Nat
  writes : Bool
  target : Nat
  kind : Nat
  grans : List Nat
  /-- the bytes performed of each granule that is not complete, a bit each (R125, R324) -/
  parts : Table Nat := []
  /-- the compressed block as far as it has been read, and whether all of it has (R152) -/
  block : List Byte := []
  ready : Bool := false
  /-- the host windows that its writes went out through (R132) -/
  ports : List PortWrite := []
  /-- the status word before the acceptance, for a command that a fault of its unit cancels (R270) -/
  was : Word := 0
  /-- the bytes of a transfer that is no CPYV (R280, R286) -/
  size : Nat := 0
  /-- the address of the side that is not variable, whether it lies in the Yard, and PAGED of the range entry (R119, R152) -/
  side : Nat := 0
  yard : Bool := false
  paged : Bool := false
  /-- the bundle that started it, and the issue (R236) -/
  pc : Nat := 0
  issue : Nat := 0
  /-- the Course cycle of the acceptance, of the last granule or of the resume: the 2^20 cycles of R126 count from it -/
  since : Nat := 0
  /-- the plan count of the acceptance (R270) -/
  clk : Nat := 0
  deriving DecidableEq, Repr

/-- What the boundary brings of one granule: its bytes from lo on, n of them, whether the target returned them as poison, and
what they are where the target lies outside the package (R116, R125, R324). -/
structure Piece where
  g : Nat
  lo : Nat
  n : Nat
  psn : Bool
  data : List Byte
  deriving DecidableEq, Repr

/-- A variable-engine write of this cycle, which performs after the cycle's reads: the command's brick; 0 its ring memory, 1 the
Yard, 2 second-tier memory; the address, the bytes, their poison, and whether with them the whole line is the transfer's
(R165). -/
structure VarWrite where
  home : Nat
  dest : Nat
  addr : Nat
  bytes : List Byte
  psn : Bool
  whole : Bool
  deriving DecidableEq, Repr

/-- The variable engine of a brick (R125, R130, R132). -/
structure VarEngine where
  queue : List VCmd
  vs : Table Word
  barriers : Table Nat
  epoch : Nat
  /-- pieces that FENCEV, a pause or a full Yard bank holds back, with their status words (R126, R132, R135) -/
  back : List (Nat × Piece)
  deriving DecidableEq, Repr

/-- A fault found after an issue, or arising in Course time, and not yet delivered (R378, R381). -/
structure Late where
  code : Nat
  slot : Nat
  late : Bool
  replay : Bool
  pc : Nat
  issue : Nat
  cycle : Nat
  tcode : Nat
  /-- what the unit's status register records when the fault is delivered (R380) -/
  regs : List (Nat × Word)
  /-- a course slip that makes the package send a slip notice (R354) -/
  notice : Bool
  /-- a forced pre-emption held pending, which a resume delivers first (R395) -/
  preempts : Bool := false
  deriving DecidableEq, Repr

/-- The trap state of a brick (R379 to R391). -/
structure Trap where
  trapped : Bool
  code : Nat
  /-- faults found since the last cycle, and pending ones (R381) -/
  found : List Late
  pend : List Late
  snap : List Word
  recLo : Word
  recHi : Word
  /-- a resume that waits for the task's other trapped bricks, and the Course cycle of the resume (R391) -/
  asked : Bool
  resumeAt : Option Nat
  rescyc : Nat
  refused : Bool
  deriving DecidableEq, Repr

/-- Why a brick is frozen (R168, R186, R131, R372, R382). -/
structure Freeze where
  /-- first and last Course cycle of a correctable-error freeze, last one of a DRIFT withhold -/
  ceFrom : Nat
  ceUntil : Nat
  driftUntil : Nat
  /-- frozen with a trapped brick of its task (R382) -/
  withTask : Bool
  /-- the Course cycle from which it is frozen with its task (R382) -/
  since : Nat
  /-- waiting at a yield for its siblings, with the stated run (R372) -/
  yielded : Option Nat
  deriving DecidableEq, Repr

/-- One brick: its resumable state and its engines (R15). -/
structure Brick where
  /-- the task it runs -/
  task : Option Nat
  running : Bool
  seq : Seq
  sc : Scalars
  vec : Vectors
  ring : Ring
  mx : Matrix
  hod : Hod
  held : List Held
  var : VarEngine
  flights : List Flight
  /-- system registers with storage, by number (R197) -/
  sys : Table Word
  /-- the MTSR writes of this cycle, which prevail over hardware updates (R197) -/
  mtsr : List (Nat × Word)
  formats : Table Nat
  pollen : List (BitVec 128)
  /-- records that enter on this cycle, with their slots: they join the queue before the next (R188, R237) -/
  pollenNew : List (Nat × BitVec 128)
  pollenLoss : Bool
  stream : List Word
  /-- port slots claimed: port, first Course cycle (R341, R347) -/
  portClaims : List (Nat × Nat)
  trap : Trap
  frz : Freeze
  workid : Word
  deriving DecidableEq, Repr

/-- A block on a read-return path (R89). -/
structure RetBlock where
  issued : Nat
  rdx : Bool
  from' : Nat
  lines : List (Line × Bool)
  /-- of an RDX: the block that its parity position held, and the stripe, looked at again at C + 56 (R109) -/
  alt : List (Line × Bool)
  stripe : Option (Nat × Nat × Nat × Nat)
  deriving DecidableEq, Repr

/-- A write-buffer entry (R90): eight lines with their poison, the full bit. -/
structure WEntry where
  lines : List (Line × Bool)
  full : Bool
  deriving DecidableEq, Repr

/-- A parity entry (R101): the parity block, the merged delta, the cycle it applies, the task that opened it. -/
structure ParityEntry where
  bank : Nat
  row : Nat
  col : Nat
  delta : List (Line × Bool)
  s : Nat
  read : Bool
  old : List (Line × Bool)
  task : Nat
  deriving DecidableEq, Repr

/-- A command that an atomic entry holds (R297): its brick, task, en opcode, bundle, issue number, and its start on the brick's
clock, which names it among the held commands. -/
structure AtomicCmd where
  brick : Nat
  task : Nat
  opc : Nat
  pc : Nat
  issue : Nat
  p : Nat
  deriving DecidableEq, Repr

/-- An atomic entry (R294, R297). -/
structure AtomicEntry where
  bank : Nat
  row : Nat
  col : Nat
  ops : Table LineOp
  version : Nat
  s : Nat
  read : Bool
  old : List (Line × Bool)
  /-- the commands merged, the opener first -/
  cmds : List AtomicCmd
  task : Nat
  ev : Events
  /-- elements that raised an event, as line * 512 + element -/
  evElems : List Nat
  /-- the version block read at S + 8 -/
  oldVer : List (Line × Bool)
  deriving DecidableEq, Repr

/-- A task's timeline on one channel (R80, R81). -/
structure Timeline where
  task : Nat
  cmds : List (BitVec 32)
  pos : Nat
  pass : Nat
  /-- owned cycles a GAP still idles -/
  idle : Nat
  running : Bool
  deriving DecidableEq, Repr

/-- A DRAM bank (R83, R84, R87, R92, R93). Times are Course cycles. -/
structure Bank where
  openRow : Option Nat
  /-- the task whose ACT opened the row; none for an ACT of a Hod window (R85, R284) -/
  openBy : Option Nat
  actAt : Option Nat
  preAt : Option Nat
  rdAt : Option Nat
  wrAt : Option Nat
  refAt : Option Nat
  rswAt : Option Nat
  refreshed : Bool
  missedLast : Bool
  cracked : Bool
  relaid : Bool
  tracker : List (Nat × Nat)
  lfsr : Nat
  /-- physical rows of the logical rows that are not at their own number -/
  rows : Table Nat
  bad : List Nat
  retire : List Nat
  /-- logical rows one or both of whose table copies are uncorrectable (R93) -/
  copyErr : Table Nat
  deriving DecidableEq, Repr

/-- A channel controller (R80 to R103, R294 to R299). -/
structure Channel where
  banks : Table Bank
  timelines : List Timeline
  memory : Table (BitVec 32)
  ret : List RetBlock
  wbuf : Table WEntry
  parity : List ParityEntry
  /-- claimed shadow slots: first cycle, bank, row, col (R100) -/
  shadows : List (Nat × Nat × Nat × Nat)
  atomics : List AtomicEntry
  /-- claimed slots of atomic and row commands: first cycle, cycles (R296) -/
  aslots : List (Nat × Nat)
  torn : List (Nat × Nat × Nat)
  tornOvf : Bool
  /-- the last commands that the channel-wide rules of R84 look at -/
  acts : List Nat
  colAt : Option Nat
  colWrb : Bool
  rdAt : Option Nat
  wrAt : Option Nat
  refAllAt : Option Nat
  rswAt : Option Nat
  /-- Course cycle of the last command the channel carried -/
  lastCmd : Option Nat
  /-- banks to close after a stop: bank, task (R85) -/
  closing : List (Nat × Nat)
  deriving DecidableEq, Repr

/-- A write of a WRB or rebuild that performs at a later Course cycle (R99). -/
structure PendWrite where
  cycle : Nat
  pch : Nat
  bank : Nat
  row : Nat
  col : Nat
  lines : List (Line × Bool)
  delta : List (Line × Bool)
  emit : Bool
  shadow : Nat
  task : Nat
  deriving DecidableEq, Repr

/-- A range entry (R119): the four registers. -/
structure Range where
  base : Word
  limit : Word
  offset : Word
  attr : Word
  deriving DecidableEq, Repr

/-- A queue of a partition (R369, R370): task order, base rank, misses, overruns, chosen in this slice. -/
structure Queue where
  order : List Nat
  base : Nat
  miss : Nat
  overrun : Nat
  chosen : Bool
  deriving DecidableEq, Repr

/-- A partition (R27, R78, R95, R119, R369 to R376). -/
structure Part where
  bricks : List Nat
  fcol : Nat
  hodcol : Nat
  savcol : Nat
  htBase : Nat
  htLen : Nat
  htstep : Nat
  htfstat : Word
  ranges : Table Range
  wiltStale : Nat
  wiltFresh : Nat
  vptroot : Word
  slice : Nat
  sliceNew : Option Nat
  /-- the Course cycle of the last slice boundary (R370, R371) -/
  lastEdge : Option Nat
  queues : Table Queue
  rrp : Table Nat
  images : List (BitVec 256 × List Word)
  deriving DecidableEq, Repr

/-- A parsed image (R365). -/
structure Image where
  stream : List Word
  data : List (Nat × Nat × List Byte)
  timelines : List (Nat × List (BitVec 32))
  formats : List Nat
  patterns : List (Nat × Line)
  tables : List (Nat × List Nat × Nat)
  count : Nat
  widths : Option Nat
  deriving DecidableEq, Repr

/-- Where a task stands (R369). -/
inductive TaskState where
  | queued
  | startPending
  | placed
  | running
  | parked
  | ended
  deriving DecidableEq, Repr

/-- A task from its acceptance to its end (R363 to R376). -/
structure Task where
  /-- the port its launch came on, where its reports go (R363) -/
  port : Nat
  launchId : Nat
  part : Nat
  queue : Nat
  rank : Nat
  asap : Bool
  timed : Bool
  start : Nat
  /-- the launch's acceptance cycle a (R363) -/
  accepted : Nat
  widths : Nat
  args : List Word
  steptag : Nat
  run : Nat
  wbase : Word
  mask : List Nat
  image : Image
  state : TaskState
  /-- Course cycle of the next first issue -/
  firstIssue : Nat
  /-- saved bricks of a parked task, and the save slot of each of its bricks once it has parked there (R392) -/
  saved : List (Nat × Brick)
  slots : List (Nat × Nat)
  pre : Bool
  tlStopped : Bool
  /-- END has issued; the cycle its timelines stop on (R81) -/
  ending : Bool
  tlStopAt : Option Nat
  /-- a forced pre-emption is due (R374) -/
  preempt : Option Nat
  /-- it comes from a request, not from a timed start's take point -/
  byRequest : Bool
  /-- parked by the Mason's park action (R391) -/
  parkOnly : Bool
  lastYield : Nat
  lastRun : Nat
  deriving DecidableEq, Repr

/-- A multicast window (R137). -/
abbrev McWin := Word

/-- What the package sends: residency reports, fault events, flits, NAKs, markers, slip notices, host writes, pages to the
Mason, attestation reports (R336, R346, R354, R367, R389, R126, R408). -/
inductive Out where
  | report (port : Nat) (ws : List Word)
  | faultEvent (brick code : Nat)
  | flit (depart lp : Nat) (f : Flit)
  | nak (port rank arrive at' : Nat)
  | marker (m : Nat)
  | forward (m : Nat)
  | notice (tag rank cycle : Nat)
  /-- a notice that goes on: up towards the root, or down to the children -/
  | relay (up : Bool) (tag rank : Nat)
  | hostWrite (port addr : Nat) (bytes : List Byte)
  | hostRead (port addr count : Nat)
  /-- what the Mason does at an NVMe namespace, through one of its four root ports (R117, R399) -/
  | nvmeWrite (port addr : Nat) (bytes : List Byte)
  | nvmeRead (port addr count : Nat)
  | pageFault (brick vs code : Nat)
  | retirement (stack : Nat)
  | attest (bytes : List Byte) (signature : List Byte)
  | removed
  deriving DecidableEq, Repr

/-- A fault found at an issue (R380): code, slot, the status registers it records if it is delivered. -/
structure Found where
  code : Nat
  slot : Nat
  regs : List (Nat × Word)
  deriving DecidableEq, Repr

/-- The work of the current Course cycle. -/
inductive Todo where
  /-- an operation of the table -/
  | event (i : Instr)
  /-- the command of a task's timeline on a channel: fetch it, decode it, run it -/
  | timeline (ch task : Nat)
  /-- a live slot of the brick whose bundle is issuing: decode its held word, run it -/
  | slot (pos : Nat)
  /-- the next part of the Course cycle: find what falls on it -/
  | phase (n : Nat)
  /-- the brick's cycle begins; the issue of its bundle completes -/
  | brickStart (b : Nat)
  | commit
  deriving DecidableEq, Repr

/-- The brick whose cycle is being worked through: the brick as the cycle began and as its bundle issues, the faults found,
whether the bundle must wait, the RC registers read (R39, R52, R131, R197, R379). -/
structure IssueCtx where
  brick : Nat
  active : Bool
  start : Option Brick
  saved : Option Brick
  found : List Found
  wait : Bool
  /-- the wait is HJOIN's (R281) -/
  joins : Bool
  /-- the wait is that of FENCEV done, which has the host ports read behind the writes outstanding (R132) -/
  portReads : Bool
  /-- status words that the bundle's own variable commands have taken (R133) -/
  taken : List Nat
  clears : List Nat
  pc : Nat
  issue : Nat
  last : Bool
  /-- where the bundle's ctl sends the program counter, and the END of the outermost level that LBRK leaves (R179, R180) -/
  jump : Option Nat
  leave : Option Nat
  /-- bundle-port accesses that guard-false operations of the bundle would make: block and plan count (R40, R158) -/
  ghosts : List (Nat × Nat)
  deriving DecidableEq, Repr

/-- A channel the command of the current timeline stands on (R80). -/
structure TimeCtx where
  ch : Nat
  task : Nat
  index : Nat
  /-- the commands that stand to issue on this Course cycle: channel, task, word (R102, R109) -/
  cmds : List (Nat × Nat × BitVec 32)
  deriving DecidableEq, Repr

/-- Bond parity's package registers (R107, R110, R115). -/
structure Bond where
  lstack : Nat
  double : Bool
  second : List Nat
  rebuild : Bool
  losscyc : Nat
  rbmark : Table Nat
  reports : List (BitVec 128)
  deriving DecidableEq, Repr

/-- Course time (R334 to R337, R357). -/
structure TimeBase where
  ct : Nat
  phi : Int
  held : Nat
  lastHeld : Bool
  lock : Bool
  /-- Φ has reached 64, and the bricks whose OVER has been cleared since (R337, R357) -/
  wasOver : Bool
  overClear : List Nat
  lm : Nat
  lastMarker : Option Nat
  /-- the rank of the tree parent, whose markers arrive (R336, R355) -/
  parent : Option Nat
  deriving DecidableEq, Repr

/-- The control cluster and the host ports (R399 to R409). -/
structure Mason where
  /-- the cores that run, and the private memory (R399) -/
  cores : List Nat
  memory : List Host.Cell
  /-- the firmware image that power-up works on (R400) -/
  boot : Option Firmware
  /-- the stack that training left out, until memory initialisation takes it out of the Bond (R112, R400; log entry 140) -/
  untrained : Option Nat
  phase : Nat
  ready : Bool
  fcode : Nat
  fwver : Nat
  hsemHeld : Bool
  hsemOwner : Nat
  hsemTie : Nat
  hdmaw : Table Nat
  admitReg : Table Nat
  txdeny : Table Nat
  admlock : Bool
  pwrLimit : Nat
  pwrL1 : Bool
  pwrL2 : Bool
  pwrLast : Nat
  pwrRun : Nat
  /-- the last frame was above 1.1 × the LIMIT it was compared with -/
  pwrOver : Bool
  measure : Table (BitVec 256)
  nonce : BitVec 256
  /-- a report is being made (R408) -/
  attesting : Bool
  /-- ATTREP: the last report and its signature (R408) -/
  attrep : List Byte
  retryCount : Table Nat
  failCount : Table Nat
  deriving DecidableEq, Repr

/-- The package. -/
structure State where
  tb : TimeBase
  bricks : Table Brick
  channels : Table Channel
  parts : Table Part
  /-- the partitions as the Course cycle began: MFSR reads their registers as they stood then (R197) -/
  partsAt : Table Part
  /-- the package's registers that MFSR reads, as the Course cycle began (R197) -/
  regsAt : Table Word
  /-- the bricks that had cleared TBSTAT.OVER for themselves, and NRMST of the bricks whose norm a notice of this cycle has cleared, as
  the Course cycle began (R197, R354, R357) -/
  overAt : List Nat
  normsAt : Table Word
  tasks : Table Task
  nextTask : Nat
  /-- HBM data by physical place, and its 64 B lines with an uncorrectable error (R74, R77) -/
  hbm : List Host.Cell
  hbmUe : List Nat
  /-- lines with an error that the check bits correct (R77) -/
  hbmCe : List Nat
  pendWrites : List PendWrite
  /-- the Yards by die * 2^26 + offset, their poisoned lines (R134 to R136) -/
  yard : List Host.Cell
  yardPoison : List Nat
  /-- 64-bit words with a correctable, and with an uncorrectable, error (R136) -/
  yardCe : List Nat
  yardUe : List Nat
  /-- the line accesses that the banks refuse on this cycle: brick, start of the command, line, 1 for a write (R135) -/
  yardRefused : List (Nat × Nat × Nat × Nat)
  ydcecnt : Table Nat
  /-- second-tier memory (R116) -/
  tier2 : List Host.Cell
  /-- lines of second-tier memory that read back as poison (R116) -/
  tier2Poison : List Nat
  /-- the variable engines' writes of this cycle (R165) -/
  varWrites : List VarWrite
  mcwin : Table McWin
  refown : Nat
  hrht : Nat
  cecnt : Table Nat
  refmiss : Table Nat
  faq : List (BitVec 128)
  faqLost : Nat
  badPages : List (Nat × Nat × Nat × Nat)
  bplFull : Bool
  bond : Bond
  /-- this package's rank (R357), and its UALink station identifier, by which RANKTBL names it (R358) -/
  rank : Nat
  station : Nat
  ranktbl : Table Nat
  pathtbl : Table Nat
  landing : List Flit
  savebase : Nat
  mason : Mason
  issue : IssueCtx
  time : TimeCtx
  /-- offers due on this Course cycle: partition, yielding task, the bricks it brings (R371) -/
  offers : List (Nat × Option Nat × List Nat)
  /-- the bricks that a plan cycle has passed for on this Course cycle, and the bricks of tasks that are not bound as their cycle
  began (R382) -/
  ran : List Nat
  before : List (Nat × Brick)
  agenda : List Todo
  inputs : List (Nat × Instr)
  out : List Out
  reads : BitVec 256
  fresh : Nat
  deriving DecidableEq, Repr

/-- Why the machine stops. Both are the package's own end, not a brick's fault (those are next states, R378). -/
inductive Fault where
  /-- raised by step: the power clamp's level 2 has halted the arithmetic clock, and only a reset restarts it (R407).
  Safe: the package does nothing more. -/
  | clockHalted
  /-- raised by step: the agenda names a slot whose held word decodes to no operation; the fetch never leaves one there.
  Safe: no run of the package reaches it. -/
  | strayWord
  deriving DecidableEq, Repr

/-- Why an operation has no meaning. -/
inductive Refusal where
  /-- raised by exec for an operation not modelled yet. Safe: the machine stops. -/
  | notModelled (mnemonic : String)
  deriving DecidableEq, Repr

/-- A pattern of the Herringbone store that sends every byte to itself (R210). -/
def identityPattern : Line := (List.range 64).foldl (fun acc j => acc ||| (BitVec.ofNat 512 j <<< (8 * j))) 0#512

def Seq.reset : Seq :=
  { pc := 0, depth := 0, loops := [], rrb := [], prb := [], held := [], steps := [], origin := 0, c0 := 0, offset := 0,
    slack := 0, lag := 0, pt := 0, clk := 0, gapLeft := none, issueNo := 0, afterSettle := false, arrived := none, ended := false, opening := true }

def Scalars.reset : Scalars := { s := [], q := [], latch := [], ue := [] }

def Vectors.reset : Vectors := { v := [], p := [], latch := [], patterns := [], activeBank := 0, ue := [] }

def Ring.reset : Ring := { mem := [], poison := [], ce := [], ue := [], tags := [], lanes := [], ports := [] }

def Matrix.reset : Matrix :=
  { om := [], claim := [], omPoison := [], acc := [], accPoison := [], flights := [], windows := [], last := none,
    arrayFree := 0, momlFree := 0, omUe := [], accUe := [] }

def HodCore.reset : HodCore :=
  { mode := .closed, ell := 1, lanes := List.replicate 32 0x00010000#32, words := [], top := 0, bot := 0, recs := [],
    children := [], bad := [] }

def Hod.reset : Hod :=
  { core := .reset, flights := [], tables := [], cfg := 0, splitTag := 0, hbmBase := 0, deepBase := 0,
    deepPaged := false, hbmUnits := 0, deepUnits := 0, lost := [], flush := none, staged := [], stagedBad := [], win := none,
    coderFree := 0, openUntil := 0, joinWait := 0, drives := [], deadAt := 0 }

def VarEngine.reset : VarEngine := { queue := [], vs := [], barriers := [], epoch := 0, back := [] }

def Trap.reset : Trap :=
  { trapped := false, code := 0, found := [], pend := [], snap := [], recLo := 0, recHi := 0, asked := false, resumeAt := none,
    rescyc := 0, refused := false }

def Freeze.reset : Freeze := { ceFrom := 0, ceUntil := 0, driftUntil := 0, withTask := false, since := 0, yielded := none }

/-- FTSEL.LEVEL and VBCFG.LEVEL reset to 7 (R130, R230); every other register resets to 0. -/
def sysReset : Table Word := [(0x023, 7#64), (0x045, 0xE0#64)]

/-- A brick with no task (R27, R173, R239, R241, R260). -/
def Brick.reset : Brick :=
  { task := none, running := false, seq := .reset, sc := .reset, vec := .reset, ring := .reset, mx := .reset, hod := .reset,
    held := [], var := .reset, flights := [], sys := sysReset, mtsr := [], formats := [], pollen := [], pollenNew := [], pollenLoss := false,
    stream := [], portClaims := [], trap := .reset, frz := .reset, workid := 0 }

def Bank.reset : Bank :=
  { openRow := none, openBy := none, actAt := none, preAt := none, rdAt := none, wrAt := none, refAt := none, rswAt := none,
    refreshed := false, missedLast := false, cracked := false, relaid := false, tracker := [], lfsr := 0, rows := [],
    bad := [], retire := [], copyErr := [] }

def Channel.reset : Channel :=
  { banks := [], timelines := [], memory := [], ret := [], wbuf := [], parity := [], shadows := [], atomics := [],
    aslots := [], torn := [], tornOvf := false, acts := [], colAt := none, colWrb := false, rdAt := none, wrAt := none,
    refAllAt := none, rswAt := none, lastCmd := none, closing := [] }

def Range.reset : Range := { base := 0, limit := 0xFFF#64, offset := 0, attr := 0 }

def Queue.reset : Queue := { order := [], base := 0, miss := 0, overrun := 0, chosen := false }

/-- SLICE.LEN resets to 16 (R376); RRP of every rank is 31 (R371), kept as the difference from 31. -/
def Part.reset : Part :=
  { bricks := [], fcol := 0, hodcol := 0, savcol := 0, htBase := 0, htLen := 0, htstep := 0, htfstat := 0, ranges := [],
    wiltStale := 0, wiltFresh := 0, vptroot := 0, slice := 16, sliceNew := none, lastEdge := none, queues := [], rrp := [], images := [] }

def Bond.reset : Bond :=
  { lstack := 0, double := false, second := [], rebuild := false, losscyc := 0, rbmark := [], reports := [] }

def TimeBase.reset : TimeBase :=
  { ct := 0, phi := 0, held := 0, lastHeld := false, lock := false, wasOver := false, overClear := [], lm := 0,
    lastMarker := none, parent := none }

def Mason.reset : Mason :=
  { cores := [0], memory := [], boot := none, untrained := none, phase := 0, ready := false, fcode := 0, fwver := 0, hsemHeld := false, hsemOwner := 0, hsemTie := 0, hdmaw := [],
    admitReg := [], txdeny := [], admlock := false, pwrLimit := 4800, pwrL1 := false, pwrL2 := false, pwrLast := 0, pwrRun := 0,
    pwrOver := false, measure := [], nonce := 0, attesting := false, attrep := [], retryCount := [], failCount := [] }

def IssueCtx.reset : IssueCtx :=
  { brick := 0, active := false, start := none, saved := none, found := [], wait := false, joins := false, portReads := false, taken := [], clears := [], pc := 0, issue := 0,
    last := true, jump := none, leave := none, ghosts := [] }

/-- The package right after reset: power-up phase 0 (R400), every register at its reset value, memory with nothing listed. -/
def State.reset : State :=
  { tb := .reset, bricks := [], channels := [], parts := [], partsAt := [], regsAt := [], overAt := [], normsAt := [], tasks := [], nextTask := 0, hbm := [], hbmUe := [], hbmCe := [],
    pendWrites := [], yard := [], yardPoison := [], yardCe := [], yardUe := [], yardRefused := [], ydcecnt := [], tier2 := [], tier2Poison := [], varWrites := [], mcwin := [], refown := 0,
    hrht := 4096, cecnt := [], refmiss := [], faq := [], faqLost := 0, badPages := [], bplFull := false, bond := .reset,
    rank := 0, station := 0, ranktbl := [], pathtbl := [], landing := [], savebase := 0, mason := .reset, issue := .reset, time := ⟨0, 0, 0, []⟩,
    offers := [], ran := [], before := [], agenda := [], inputs := [], out := [], reads := 0, fresh := 0 }

end Sys2Proof.Machine
end

