-- ==== Sys2Proof/Config.lean ====
section
/-! DEFINITION. Values that the spec leaves open: constants with no body, of which nothing can be proved. Log entry 7. -/

namespace Sys2Proof.Config

/-- The free value of n bits drawn with counter k. -/
opaque freeBits : Nat → Nat → Nat

/-- ML-DSA-44 verification of a firmware image: key, body, signature (R401). The spec names the scheme, not its steps. -/
opaque mlDsaVerify : List Byte → List Byte → List Byte → Bool

/-- ML-DSA-44 signing with the device key (R408). -/
opaque mlDsaSign : List Byte → List Byte

/-- The physical row that an RSW of a hot row moves to: stack, channel, bank, generator state (R92). -/
opaque rswDestination : Nat → Nat → Nat → Nat → Nat

/-- The spare row that memory initialisation maps a listed bad row to: stack, channel, bank, row (R94). -/
opaque spareRow : Nat → Nat → Nat → Nat → Nat

/-- The public key and the version in the header of a firmware image, whose layout the spec does not give (R401). -/
opaque headerKey : List Byte → List Byte
opaque headerVersion : List Byte → Nat

/-- The certificate of the identity key (R408). -/
opaque identityCertificate : List Byte

/-- The device key hash and the rollback counter held in fuses (R401). -/
opaque fusedKeyHash : Nat
opaque rollbackCounter : Nat

/-- A switch of all the bricks of a partition at once completes each direction in 8,320 cycles: its bricks, frame columns, save
columns and the save area's base (R393). The spec gives no figure for the HBM traffic of a switch. -/
opaque switchFits : List Nat → Nat → Nat → Nat → Bool

/-- The root port, 0 to 3, whose NVMe controller holds an address of an NVMe range: the Mason's kernel maps the ranges (R117, R399). -/
opaque nvmePort : Nat → Nat

/-- The digest of the boot ROM, which extends measurement 0 (R408). -/
opaque romDigest : Nat

/-- Line n of a brick's save image where the spec names its content and not its layout: the control block, the lane values, the
matrix operations and the Hod's regions (R392). -/
opaque imageLine : Machine.Brick → Nat → Line

/-- The value line of a replay: the captured address, size, lane with its direction, destination and stored data (R386); and what the fields
of such a line are. The spec does not lay it out. -/
opaque capturedLine : Nat → Nat → Nat → Nat → Word → Line
opaque capturedFields : Line → Nat × Nat × Nat × Nat × Word

end Sys2Proof.Config
end

