-- ==== Sys2Proof/WellFormed.lean ====
section
/-! DEFINITION. The decode checks of R36 to R38, R48, R54, R57, R58, R73 and of the chapters' layouts: which operations a
slot position or a timeline admits. An operation that fails its check decodes as an illegal bundle (fault 0x01). -/

namespace Sys2Proof

/-- Cluster of a cluster slot position (R31). -/
def clusterOf (pos : Nat) : Nat := (pos - 3) / 3

/-- Unit of a cluster slot position: 0 X, 1 Y, 2 Z (R31). -/
def unitOf (pos : Nat) : Nat := (pos - 3) % 3

def isScalarPos (pos : Nat) : Bool := pos == 1 || pos == 2
def isUnitPos (u pos : Nat) : Bool := 3 ≤ pos && pos ≤ 26 && unitOf pos == u
def isRingPos (pos : Nat) : Bool := 27 ≤ pos && pos ≤ 34
def isApPos (pos : Nat) : Bool := pos == 36 || pos == 37

/-- R36: a scalar guard names cluster 0. -/
def Guard.wf (g : Guard) : Bool := g.gc < 8 && g.gi < 16 && (!g.gk || g.gc == 0)

/-- The all-zero guard that SETTLE and YIELD require (R184, R185). -/
def Guard.zero : Guard := ⟨false, false, 0, 0⟩

/-- A field that must be all zeros (R54, R55). -/
def Opd.isZero (o : Opd) : Bool := o == .reg 0

/-- Operands of a scalar slot (R37, R191). -/
def Opd.scalarVal : Opd → Bool
  | .reg i => i < 64
  | .slatch u => u < 2
  | .loop l => l < 6
  | .imm v => v < 1024
  | _ => false

/-- Operands of a slot of cluster c (R37, R203). -/
def Opd.clusterVal (c : Nat) : Opd → Bool
  | .reg i => i < 1024
  | .latch c' u => c' == c && c' < 8 && u < 3
  | .tap _ lane => lane < 16
  | .loop l => l < 6
  | .imm v => v < 1024
  | _ => false

/-- Operands of a floating-point operation: no immediate (R38). -/
def Opd.floatVal (c : Nat) : Opd → Bool
  | .imm _ => false
  | o => o.clusterVal c

def Opd.isReg (n : Nat) : Opd → Bool
  | .reg i => i < n
  | _ => false

def Opd.isTap : Opd → Bool
  | .tap _ lane => lane < 16
  | _ => false

def Opd.isOm : Opd → Bool
  | .om i => i < 16
  | _ => false

def Opd.isAcc : Opd → Bool
  | .acc i => i < 16
  | _ => false

def Opd.isPred (q : Bool) : Opd → Bool
  | .pred q' i => q' == q && i < 16
  | _ => false

/-- A predicate destination: p0 and q0 are no destinations (R191, R201). -/
def Opd.isPredDst (q : Bool) : Opd → Bool
  | .pred q' i => q' == q && 0 < i && i < 16
  | _ => false

/-- An immediate width of BFX and BFI, 1 to 64 (R194). -/
def Opd.isWidth : Opd → Bool
  | .imm v => 1 ≤ v && v ≤ 64
  | _ => false

def Opd.isImm : Opd → Bool
  | .imm v => v < 1024
  | _ => false

/-- The index of an om or acc descriptor; 0 for any other. -/
def Opd.index : Opd → Nat
  | .om i => i
  | .acc i => i
  | .reg i => i
  | .pred _ i => i
  | .tap _ lane => lane
  | .imm v => v
  | _ => 0

/-- mod sets no bit outside the mask (R54, R57). -/
def modIn (m mask : Nat) : Bool := m < 1024 && (m &&& mask) == m

/-- The system register numbers that the chapters assign (R197). -/
def sysAssigned (n : Nat) : Bool :=
  n ≤ 0x024 || (0x026 ≤ n && n ≤ 0x02E) || (0x030 ≤ n && n ≤ 0x033) || (0x040 ≤ n && n ≤ 0x05F) ||
  (0x100 ≤ n && n ≤ 0x1FF)

/-- Element width in bits of a format code (R218); 0 for a reserved code and for 0xF. -/
def fmtWidth (c : Nat) : Nat :=
  match c with
  | 0x0 => 32 | 0x1 => 16 | 0x2 => 64 | 0x3 => 8 | 0x4 => 4 | 0x5 => 8 | 0x6 => 16 | 0x7 => 32
  | 0x8 => 8 | 0x9 => 16 | 0xA => 32 | 0xB => 8 | _ => 0

def fmtIsFloat (c : Nat) : Bool := c == 0 || c == 1 || c == 2
def fmtIsInt (c : Nat) : Bool := c == 5 || c == 6 || c == 7 || c == 8 || c == 9 || c == 10

/-- The admitted VCVT pairs of distinct formats (R225). -/
def vcvtPair (fs fd : Nat) : Bool :=
  fs != fd &&
  ((fmtIsFloat fs && (fmtIsFloat fd || fmtIsInt fd || fd == 3 || fd == 4)) ||
   (fmtIsInt fs && (fmtIsFloat fd || fmtIsInt fd)) ||
   ((fs == 3 || fs == 4) && fmtIsFloat fd) ||
   (fs == 0 && fd == 11) || (fs == 11 && fd == 0))

/-- max width div min width of two formats (R225). -/
def fmtRatio (fs fd : Nat) : Nat := max (fmtWidth fs) (fmtWidth fd) / min (fmtWidth fs) (fmtWidth fd)

/-- The decode checks of VCVT (R225). -/
def vcvtOk (o : SlotOp) : Bool :=
  let fs := o.mod % 16
  let fd := o.mod / 16 % 16
  let rm := o.mod / 256
  rm < 2 && !(fd == 11 && rm != 0) &&
  (if fs == 15 then fd != 15 && fmtWidth fd != 0
   else if fd == 15 then fmtWidth fs != 0
   else vcvtPair fs fd && o.b.index < fmtRatio fs fd)

/-- Slots of an operand-tile group (R238). -/
def omGroup (f : Nat) : Nat := match f with | 0 => 2 | 2 => 4 | _ => 1

def mxFormat (f : Nat) : Bool := f < 4

/-- The decode checks of MMA and MMAT (R244). -/
def mmaOk (o : SlotOp) : Bool :=
  let f := o.mod % 16
  f == 15 || (mxFormat f && o.a.index % omGroup f == 0 && o.b.index % omGroup f == 0 &&
    (f != 2 || o.dst.index % 2 == 0))

/-- The decode checks of MDRAIN (R248). -/
def mdrainOk (o : SlotOp) : Bool :=
  let f := o.mod % 16
  f == 15 || (mxFormat f && o.dst.index % omGroup f == 0 && (f != 2 || o.a.index % 2 == 0))

/-- The decode checks of MOML (R240). -/
def momlOk (o : SlotOp) : Bool := o.mod < 3 && o.a.index + 2 ^ o.mod ≤ 16

/-- The formats HPUSH and HPOP take (R269). -/
def hodFormat (f : Nat) : Bool := f == 0 || f == 1 || f == 3 || f == 4 || f == 5 || f == 8 || f == 15

/-- The ring base descriptors (R159). -/
def Opd.ringBase : Opd → Bool
  | .reg i => i < 64
  | .loop l => l < 6
  | .imm v => v < 1024
  | _ => false

/-- The accumulator row descriptors (R242). -/
def Opd.apRow : Opd → Bool
  | .reg i => i < 64
  | .loop l => l < 6
  | .imm v => v < 64
  | _ => false

/-- A copy start operand: a scalar register or an immediate (R139). -/
def Opd.startVal : Opd → Bool
  | .reg i => i < 64
  | .imm v => v < 1024
  | _ => false

def RingOp.wf (o : RingOp) (modOk : Bool) : Bool :=
  isRingPos o.pos && o.g.wf && o.lane < 16 && o.base.ringBase && o.line < 4096 && modOk

def ApOp.wf (o : ApOp) : Bool :=
  isApPos o.pos && o.g.wf && o.tile.isAcc && o.row.apRow && o.lane < 16 && o.seg < 4

def HdOp.wf (o : HdOp) (lane tag count table fmt : Bool) : Bool :=
  o.g.wf && o.lane < 16 && (lane || (o.aw == false && o.lane == 0)) && o.tag < 65536 && (tag || o.tag == 0) &&
  o.count < 64 && (count || o.count == 0) && o.table < 64 && (table || o.table == 0) && o.fmt < 16 && fmt

def EnOp.wf (o : EnOp) (aLim : Nat) (bZero : Bool) (immLim : Nat) : Bool :=
  o.g.wf && o.a.isReg aLim && (if bZero then o.b.isZero else o.b.startVal) && o.imm < immLim

def CtlOp.wf (o : CtlOp) (aOk immOk : Bool) : Bool := o.g.wf && aOk && o.imm < 2 ^ 34 && immOk

/-- A flit names a UALink port, ranks of the domain, a brick and at most eight lines (R341, R345). -/
def Flit.wf (f : Flit) : Bool := f.port < 36 && f.srcRank < 3072 && f.dstRank < 3072 && f.dstBrick < 768 && f.lines.length ≤ 8

/-- The register exists. -/
def MasonReg.wf : MasonReg → Bool
  | .htalloc k => k < 8
  | .hctl => true
  | .hrht => true
  | .bondmode => true
  | .tornovf stack => stack < 24
  | .vptroot k => k < 8
  | .ranktbl r => r < 3072
  | .pathtbl r => r < 3072
  | .slice k => k < 8
  | .brkctl b => b < 768
  | .hdmaw p i => p < 2 && i < 8
  | .admitReg n => n < 44
  | .pwrlim => true
  | .attnonce => true
  | .qstat k q => k < 8 && q < 32
  | .attrep => true
  | .core i => i < 8
  | .privateWord a => a < 2 ^ 34 && a % 8 == 0

/-- The location exists (R390). -/
def WindowEdit.wf : WindowEdit → Bool
  | .sreg i _ => i < 64
  | .qpred i _ => i < 16
  | .vreg c i _ => c < 8 && i < 1024
  | .ppred c i _ => c < 8 && i < 16
  | .ringLine line _ => line < 32768
  | .tag g _ => g < 512
  | .accSeg tile row seg _ => tile < 16 && row < 64 && seg < 4
  | .omLine slot line _ => slot < 16 && line < 128
  | .pattern bank p _ => bank < 2 && p < 64
  | .format i code => i < 64 && code < 16
  | .slatch u _ => u < 2
  | .clatch c u _ => c < 8 && u < 3
  | .flight k _ => k < 256
  | .flightMask k _ => k < 256
  | .laneValue _ lane station _ => lane < 16 && station < 20
  | .pollen k _ => k < 256
  | .sysReg n _ => n < 1024
  | .barrier i v => i < 32 && v < 256
  | .status i _ => i < 64
  | .pc v => v < 2 ^ 34
  | .depth v => v ≤ 6
  | .level i idx rem step start fin =>
    i < 6 && idx < 2 ^ 64 && rem < 2 ^ 32 && decide (-128 ≤ step) && decide (step < 128) && start < 2 ^ 34 && fin < 2 ^ 34
  | .bases c rrb prb => c < 8 && rrb < 512 && prb < 8
  | .held pos _ => 1 ≤ pos && pos < 40
  | .steps pos sd sa sb => 1 ≤ pos && pos < 40 && [sd, sa, sb].all fun k => decide (-128 ≤ k) && decide (k < 128)
  | .region origin offset slack lag => origin < 2 ^ 64 && offset < 2 ^ 24 && slack < 2 ^ 24 && lag < 2 ^ 32
  | .times pt c0 => pt < 2 ^ 64 && c0 < 2 ^ 64
  | .progress issueNo gap => issueNo < 256 && gap.all (· < 2 ^ 16)
  | .claim slot _ => slot < 16
  | .slotPoison slot _ => slot < 16
  | .tilePoison tile _ => tile < 16
  | .hodLane i _ => i < 32
  | .hodWord _ _ => true
  | .hodRec k _ _ => k < 4096
  | .activeBank v => v < 2
  | .hodStack mode ell top bot => mode ≤ 4 && 1 ≤ ell && ell ≤ 32 && bot ≤ top && bot % 5888 == 0 && top - bot ≤ 129536
  | .hodCount n => n ≤ 4096
  | .hodUnits hbm deep => hbm < 2 ^ 32 && deep < 2 ^ 32
  | .hodChild k _ idx state ell _ _ => k < 4096 && idx < 64 && state ≤ 2 && 1 ≤ ell && ell ≤ 32
  | .hodChildLane k i _ => k < 4096 && i < 32
  | .hodChildRec k i _ _ => k < 4096 && i < 4096
  | .hodOp k _ left => k < 64 && left ≤ 64
  | .hodOpLine k i _ => k < 64 && i < 64
  | .mxOp k _ left => k < 64 && left ≤ 128
  | .mxWord k i _ => k < 64 && i < 8192
  | .mxLine k i _ => k < 64 && i < 128
  | .mxWindow k kind index _ => k < 64 && kind ≤ 4 && index < 16
  | .heldWord k i _ => k < 16 && i < 3
  | .heldTime k _ _ => k < 16
  | .heldLine k i _ _ => k < 16 && i < 32768
  | .hodFreq t i f => t < 64 && i < 256 && f ≤ 4096
  | .hodPrec t k => t < 64 && 4 ≤ k && k ≤ 12

/-- R54, R73: the operation is one that its slot position (or the timeline) admits; the operands of an event are in range. -/
def Instr.wf : Instr → Bool
  | .branch o => o.wf (o.a.isZero) (o.imm % 8 == 0)
  | .branchReg o => o.wf (o.a.isReg 64 || (o.a matches .slatch _ && o.a.scalarVal)) (o.imm == 0)
  | .call o => o.wf (o.a.isZero) (true)
  | .loop o => o.wf (o.a.scalarVal) (o.imm < 2 ^ 32 && o.imm % 8192 != 0)
  | .lbrk o => o.wf (o.a.isZero) (1 ≤ o.imm && o.imm ≤ 6)
  | .setstep o => o.wf (o.a.isZero) (o.imm < 2 ^ 30 && 1 ≤ o.imm % 64 && o.imm % 64 ≤ 39)
  | .rot o => o.wf (if o.imm / 131072 % 2 == 1 then o.a.isPred true else o.a.isZero) (o.imm < 2 ^ 18 && o.imm % 256 != 0)
  | .rotset o => o.wf (o.a.isZero) (o.imm < 2 ^ 21 && o.imm % 256 != 0)
  | .settle o => o.wf (o.a.isZero && o.g == .zero) (1 ≤ o.imm % 2 ^ 24 && o.imm / 2 ^ 24 ≤ o.imm % 2 ^ 24)
  | .yield o => o.wf (o.a.isZero && o.g == .zero) (1 ≤ o.imm && o.imm < 2 ^ 24)
  | .drift o => o.wf (o.a.isZero) (o.imm < 8)
  | .trap o => o.wf (o.a.isZero) (o.imm < 2 ^ 16)
  | .ppop o => o.wf (o.a.isReg 63) (o.imm == 0)
  | .endTask o => o.wf (o.a.isZero) (o.imm == 0)
  | .movI64 o => isScalarPos o.pos && o.g.wf && o.dst.isReg 64 && o.a.scalarVal && o.b.isZero && modIn o.mod 0
  | .addI64 o => isScalarPos o.pos && o.g.wf && o.dst.isReg 64 && o.a.scalarVal && o.b.scalarVal && modIn o.mod 0
  | .subI64 o => isScalarPos o.pos && o.g.wf && o.dst.isReg 64 && o.a.scalarVal && o.b.scalarVal && modIn o.mod 0
  | .and o => isScalarPos o.pos && o.g.wf && o.dst.isReg 64 && o.a.scalarVal && o.b.scalarVal && modIn o.mod 0
  | .or o => isScalarPos o.pos && o.g.wf && o.dst.isReg 64 && o.a.scalarVal && o.b.scalarVal && modIn o.mod 0
  | .xor o => isScalarPos o.pos && o.g.wf && o.dst.isReg 64 && o.a.scalarVal && o.b.scalarVal && modIn o.mod 0
  | .shl o => isScalarPos o.pos && o.g.wf && o.dst.isReg 64 && o.a.scalarVal && o.b.scalarVal && modIn o.mod 0
  | .shr o => isScalarPos o.pos && o.g.wf && o.dst.isReg 64 && o.a.scalarVal && o.b.scalarVal && modIn o.mod 0
  | .sar o => isScalarPos o.pos && o.g.wf && o.dst.isReg 64 && o.a.scalarVal && o.b.scalarVal && modIn o.mod 0
  | .minI64 o => isScalarPos o.pos && o.g.wf && o.dst.isReg 64 && o.a.scalarVal && o.b.scalarVal && modIn o.mod 1
  | .maxI64 o => isScalarPos o.pos && o.g.wf && o.dst.isReg 64 && o.a.scalarVal && o.b.scalarVal && modIn o.mod 1
  | .mulI64 o => isScalarPos o.pos && o.g.wf && o.dst.isReg 64 && o.a.scalarVal && o.b.scalarVal && modIn o.mod 0
  | .mulhI64 o => isScalarPos o.pos && o.g.wf && o.dst.isReg 64 && o.a.scalarVal && o.b.scalarVal && modIn o.mod 1
  | .cmpeqI64 o => isScalarPos o.pos && o.g.wf && o.dst.isPredDst true && o.a.scalarVal && o.b.scalarVal && modIn o.mod 0
  | .cmpneI64 o => isScalarPos o.pos && o.g.wf && o.dst.isPredDst true && o.a.scalarVal && o.b.scalarVal && modIn o.mod 0
  | .cmpltI64 o => isScalarPos o.pos && o.g.wf && o.dst.isPredDst true && o.a.scalarVal && o.b.scalarVal && modIn o.mod 1
  | .cmpleI64 o => isScalarPos o.pos && o.g.wf && o.dst.isPredDst true && o.a.scalarVal && o.b.scalarVal && modIn o.mod 1
  | .qand o => isScalarPos o.pos && o.g.wf && o.dst.isPredDst true && o.a.isPred true && o.b.isPred true && modIn o.mod 0
  | .qor o => isScalarPos o.pos && o.g.wf && o.dst.isPredDst true && o.a.isPred true && o.b.isPred true && modIn o.mod 0
  | .qxor o => isScalarPos o.pos && o.g.wf && o.dst.isPredDst true && o.a.isPred true && o.b.isPred true && modIn o.mod 0
  | .qnot o => isScalarPos o.pos && o.g.wf && o.dst.isPredDst true && o.a.isPred true && o.b.isZero && modIn o.mod 0
  | .bfx o => isScalarPos o.pos && o.g.wf && o.dst.isReg 64 && o.a.scalarVal && o.b.isWidth && modIn o.mod 63
  | .bfi o => isScalarPos o.pos && o.g.wf && o.dst.isReg 64 && o.a.scalarVal && o.b.isWidth && modIn o.mod 63
  | .popc o => isScalarPos o.pos && o.g.wf && o.dst.isReg 64 && o.a.scalarVal && o.b.isZero && modIn o.mod 0
  | .clz o => isScalarPos o.pos && o.g.wf && o.dst.isReg 64 && o.a.scalarVal && o.b.isZero && modIn o.mod 0
  | .ld o => isScalarPos o.pos && o.g.wf && o.dst.isReg 64 && o.a.scalarVal && o.b.scalarVal && modIn o.mod 7
  | .st o => isScalarPos o.pos && o.g.wf && o.dst.isZero && o.a.scalarVal && o.b.scalarVal && modIn o.mod 3
  | .mfsr o => isScalarPos o.pos && o.g.wf && o.dst.isReg 64 && o.a.isZero && o.b.isZero && modIn o.mod 1023 && (sysAssigned o.mod)
  | .mtsr o => isScalarPos o.pos && o.g.wf && o.dst.isZero && o.a.scalarVal && o.b.isZero && modIn o.mod 1023 && (sysAssigned o.mod)
  | .wid o => isScalarPos o.pos && o.g.wf && o.dst.isReg 64 && o.a.isZero && o.b.isZero && modIn o.mod 7 && (o.mod < 6)
  | .vmov o => isUnitPos 0 o.pos && o.g.wf && o.dst.isReg 1024 && o.a.clusterVal (clusterOf o.pos) && o.b.isZero && modIn o.mod 0
  | .vand o => isUnitPos 0 o.pos && o.g.wf && o.dst.isReg 1024 && o.a.clusterVal (clusterOf o.pos) && o.b.clusterVal (clusterOf o.pos) && modIn o.mod 0
  | .vor o => isUnitPos 0 o.pos && o.g.wf && o.dst.isReg 1024 && o.a.clusterVal (clusterOf o.pos) && o.b.clusterVal (clusterOf o.pos) && modIn o.mod 0
  | .vxor o => isUnitPos 0 o.pos && o.g.wf && o.dst.isReg 1024 && o.a.clusterVal (clusterOf o.pos) && o.b.clusterVal (clusterOf o.pos) && modIn o.mod 0
  | .vandn o => isUnitPos 0 o.pos && o.g.wf && o.dst.isReg 1024 && o.a.clusterVal (clusterOf o.pos) && o.b.clusterVal (clusterOf o.pos) && modIn o.mod 0
  | .vshlT _ o => isUnitPos 0 o.pos && o.g.wf && o.dst.isReg 1024 && o.a.clusterVal (clusterOf o.pos) && o.b.clusterVal (clusterOf o.pos) && modIn o.mod 0
  | .vshrT _ o => isUnitPos 0 o.pos && o.g.wf && o.dst.isReg 1024 && o.a.clusterVal (clusterOf o.pos) && o.b.clusterVal (clusterOf o.pos) && modIn o.mod 1
  | .vaddT _ o => isUnitPos 0 o.pos && o.g.wf && o.dst.isReg 1024 && o.a.clusterVal (clusterOf o.pos) && o.b.clusterVal (clusterOf o.pos) && modIn o.mod 2
  | .vsubT _ o => isUnitPos 0 o.pos && o.g.wf && o.dst.isReg 1024 && o.a.clusterVal (clusterOf o.pos) && o.b.clusterVal (clusterOf o.pos) && modIn o.mod 3
  | .vminT _ o => isUnitPos 0 o.pos && o.g.wf && o.dst.isReg 1024 && o.a.clusterVal (clusterOf o.pos) && o.b.clusterVal (clusterOf o.pos) && modIn o.mod 1
  | .vmaxT _ o => isUnitPos 0 o.pos && o.g.wf && o.dst.isReg 1024 && o.a.clusterVal (clusterOf o.pos) && o.b.clusterVal (clusterOf o.pos) && modIn o.mod 1
  | .vcmpeqT _ o => isUnitPos 0 o.pos && o.g.wf && o.dst.isPredDst false && o.a.clusterVal (clusterOf o.pos) && o.b.clusterVal (clusterOf o.pos) && modIn o.mod 0
  | .vcmpltT _ o => isUnitPos 0 o.pos && o.g.wf && o.dst.isPredDst false && o.a.clusterVal (clusterOf o.pos) && o.b.clusterVal (clusterOf o.pos) && modIn o.mod 1
  | .vcmpleT _ o => isUnitPos 0 o.pos && o.g.wf && o.dst.isPredDst false && o.a.clusterVal (clusterOf o.pos) && o.b.clusterVal (clusterOf o.pos) && modIn o.mod 1
  | .vsel o => isUnitPos 0 o.pos && o.g.wf && o.dst.isReg 1024 && o.a.clusterVal (clusterOf o.pos) && o.b.clusterVal (clusterOf o.pos) && modIn o.mod 15
  | .pand o => isUnitPos 0 o.pos && o.g.wf && o.dst.isPredDst false && o.a.isPred false && o.b.isPred false && modIn o.mod 0
  | .por o => isUnitPos 0 o.pos && o.g.wf && o.dst.isPredDst false && o.a.isPred false && o.b.isPred false && modIn o.mod 0
  | .pxor o => isUnitPos 0 o.pos && o.g.wf && o.dst.isPredDst false && o.a.isPred false && o.b.isPred false && modIn o.mod 0
  | .pnot o => isUnitPos 0 o.pos && o.g.wf && o.dst.isPredDst false && o.a.isPred false && o.b.isZero && modIn o.mod 0
  | .vaddF _ o => isUnitPos 0 o.pos && o.g.wf && o.dst.isReg 1024 && o.a.floatVal (clusterOf o.pos) && o.b.floatVal (clusterOf o.pos) && modIn o.mod 0
  | .vsubF _ o => isUnitPos 0 o.pos && o.g.wf && o.dst.isReg 1024 && o.a.floatVal (clusterOf o.pos) && o.b.floatVal (clusterOf o.pos) && modIn o.mod 0
  | .vminF _ o => isUnitPos 0 o.pos && o.g.wf && o.dst.isReg 1024 && o.a.floatVal (clusterOf o.pos) && o.b.floatVal (clusterOf o.pos) && modIn o.mod 0
  | .vmaxF _ o => isUnitPos 0 o.pos && o.g.wf && o.dst.isReg 1024 && o.a.floatVal (clusterOf o.pos) && o.b.floatVal (clusterOf o.pos) && modIn o.mod 0
  | .vcmpeqF _ o => isUnitPos 0 o.pos && o.g.wf && o.dst.isPredDst false && o.a.floatVal (clusterOf o.pos) && o.b.floatVal (clusterOf o.pos) && modIn o.mod 0
  | .vcmpltF _ o => isUnitPos 0 o.pos && o.g.wf && o.dst.isPredDst false && o.a.floatVal (clusterOf o.pos) && o.b.floatVal (clusterOf o.pos) && modIn o.mod 0
  | .vcmpleF _ o => isUnitPos 0 o.pos && o.g.wf && o.dst.isPredDst false && o.a.floatVal (clusterOf o.pos) && o.b.floatVal (clusterOf o.pos) && modIn o.mod 0
  | .vabsF _ o => isUnitPos 0 o.pos && o.g.wf && o.dst.isReg 1024 && o.a.floatVal (clusterOf o.pos) && o.b.isZero && modIn o.mod 0
  | .vcvt o => isUnitPos 0 o.pos && o.g.wf && o.dst.isReg 1024 && o.a.floatVal (clusterOf o.pos) && o.b.isImm && modIn o.mod 511 && (vcvtOk o)
  | .vmulF32 o => isUnitPos 1 o.pos && o.g.wf && o.dst.isReg 1024 && o.a.floatVal (clusterOf o.pos) && o.b.floatVal (clusterOf o.pos) && modIn o.mod 0
  | .vmulBf16 o => isUnitPos 1 o.pos && o.g.wf && o.dst.isReg 1024 && o.a.floatVal (clusterOf o.pos) && o.b.floatVal (clusterOf o.pos) && modIn o.mod 0
  | .vfmaF32 o => isUnitPos 1 o.pos && o.g.wf && o.dst.isReg 1024 && o.a.floatVal (clusterOf o.pos) && o.b.floatVal (clusterOf o.pos) && modIn o.mod 0
  | .vfmaBf16 o => isUnitPos 1 o.pos && o.g.wf && o.dst.isReg 1024 && o.a.floatVal (clusterOf o.pos) && o.b.floatVal (clusterOf o.pos) && modIn o.mod 0
  | .vfmsF32 o => isUnitPos 1 o.pos && o.g.wf && o.dst.isReg 1024 && o.a.floatVal (clusterOf o.pos) && o.b.floatVal (clusterOf o.pos) && modIn o.mod 0
  | .vfmaF64 o => isUnitPos 1 o.pos && o.g.wf && o.dst.isReg 1024 && o.a.floatVal (clusterOf o.pos) && o.b.floatVal (clusterOf o.pos) && modIn o.mod 0
  | .vmulF64 o => isUnitPos 1 o.pos && o.g.wf && o.dst.isReg 1024 && o.a.floatVal (clusterOf o.pos) && o.b.floatVal (clusterOf o.pos) && modIn o.mod 0
  | .vaddF64 o => isUnitPos 1 o.pos && o.g.wf && o.dst.isReg 1024 && o.a.floatVal (clusterOf o.pos) && o.b.floatVal (clusterOf o.pos) && modIn o.mod 0
  | .vmulI32 o => isUnitPos 1 o.pos && o.g.wf && o.dst.isReg 1024 && o.a.clusterVal (clusterOf o.pos) && o.b.clusterVal (clusterOf o.pos) && modIn o.mod 0
  | .vmulhI32 o => isUnitPos 1 o.pos && o.g.wf && o.dst.isReg 1024 && o.a.clusterVal (clusterOf o.pos) && o.b.clusterVal (clusterOf o.pos) && modIn o.mod 1
  | .vdotI8 o => isUnitPos 1 o.pos && o.g.wf && o.dst.isReg 1024 && o.a.clusterVal (clusterOf o.pos) && o.b.clusterVal (clusterOf o.pos) && modIn o.mod 1
  | .vdotI16 o => isUnitPos 1 o.pos && o.g.wf && o.dst.isReg 1024 && o.a.clusterVal (clusterOf o.pos) && o.b.clusterVal (clusterOf o.pos) && modIn o.mod 1
  | .vshuf o => isUnitPos 2 o.pos && o.g.wf && o.dst.isReg 1024 && o.a.clusterVal (clusterOf o.pos) && o.b.isZero && modIn o.mod 63
  | .vhbswap o => isUnitPos 2 o.pos && o.g.wf && o.dst.isZero && o.a.isZero && o.b.isZero && modIn o.mod 0
  | .vhbld o => isUnitPos 2 o.pos && o.g.wf && o.dst.isZero && o.a.clusterVal (clusterOf o.pos) && o.b.isZero && modIn o.mod 63
  | .vshaddI32 o => isUnitPos 2 o.pos && o.g.wf && o.dst.isReg 1024 && o.a.clusterVal (clusterOf o.pos) && o.b.clusterVal (clusterOf o.pos) && modIn o.mod 63
  | .vshaddF32 o => isUnitPos 2 o.pos && o.g.wf && o.dst.isReg 1024 && o.a.floatVal (clusterOf o.pos) && o.b.floatVal (clusterOf o.pos) && modIn o.mod 63
  | .vshmaxF32 o => isUnitPos 2 o.pos && o.g.wf && o.dst.isReg 1024 && o.a.floatVal (clusterOf o.pos) && o.b.floatVal (clusterOf o.pos) && modIn o.mod 63
  | .vshminF32 o => isUnitPos 2 o.pos && o.g.wf && o.dst.isReg 1024 && o.a.floatVal (clusterOf o.pos) && o.b.floatVal (clusterOf o.pos) && modIn o.mod 63
  | .vshaddBf16 o => isUnitPos 2 o.pos && o.g.wf && o.dst.isReg 1024 && o.a.floatVal (clusterOf o.pos) && o.b.floatVal (clusterOf o.pos) && modIn o.mod 63
  | .vrcpF32 o => isUnitPos 2 o.pos && o.g.wf && o.dst.isReg 1024 && o.a.floatVal (clusterOf o.pos) && o.b.isZero && modIn o.mod 0
  | .vrsqF32 o => isUnitPos 2 o.pos && o.g.wf && o.dst.isReg 1024 && o.a.floatVal (clusterOf o.pos) && o.b.isZero && modIn o.mod 0
  | .vexp2F32 o => isUnitPos 2 o.pos && o.g.wf && o.dst.isReg 1024 && o.a.floatVal (clusterOf o.pos) && o.b.isZero && modIn o.mod 0
  | .vlog2F32 o => isUnitPos 2 o.pos && o.g.wf && o.dst.isReg 1024 && o.a.floatVal (clusterOf o.pos) && o.b.isZero && modIn o.mod 0
  | .vdivF32 o => isUnitPos 2 o.pos && o.g.wf && o.dst.isReg 1024 && o.a.floatVal (clusterOf o.pos) && o.b.floatVal (clusterOf o.pos) && modIn o.mod 0
  | .vsqrtF32 o => isUnitPos 2 o.pos && o.g.wf && o.dst.isReg 1024 && o.a.floatVal (clusterOf o.pos) && o.b.isZero && modIn o.mod 0
  | .vxc o => isUnitPos 2 o.pos && o.g.wf && o.dst.isReg 1024 && o.a.clusterVal (clusterOf o.pos) && o.b.isZero && modIn o.mod 7 && (o.mod ≠ clusterOf o.pos)
  | .vtap o => isUnitPos 2 o.pos && o.g.wf && o.dst.isReg 1024 && o.a.isTap && o.b.isZero && modIn o.mod 0
  | .vput o => isUnitPos 2 o.pos && o.g.wf && o.dst.isZero && o.a.clusterVal (clusterOf o.pos) && o.b.isZero && modIn o.mod 31
  | .mrd o => o.wf (o.mod == 0)
  | .mwr o => o.wf (o.mod == 0)
  | .mrdt o => o.wf (o.mod < 64)
  | .mwrm o => o.wf (0 < o.mod && o.mod < 256)
  | .mstag o => o.wf (o.mod < 64 && o.aw == false && o.lane == 0)
  | .mma o => o.pos == 35 && o.g.wf && o.dst.isAcc && o.a.isOm && o.b.isOm && modIn o.mod 31 && (mmaOk o)
  | .mmat o => o.pos == 35 && o.g.wf && o.dst.isAcc && o.a.isOm && o.b.isOm && modIn o.mod 63 && (mmaOk o)
  | .mzero o => o.pos == 35 && o.g.wf && o.dst.isAcc && o.a.isZero && o.b.isZero && modIn o.mod 0
  | .mdrain o => o.pos == 35 && o.g.wf && o.dst.isOm && o.a.isAcc && o.b.isZero && modIn o.mod 31 && (mdrainOk o)
  | .mclaim o => o.pos == 35 && o.g.wf && o.dst.isOm && o.a.isZero && o.b.isZero && modIn o.mod 0
  | .mrel o => o.pos == 35 && o.g.wf && o.dst.isOm && o.a.isZero && o.b.isZero && modIn o.mod 0
  | .moml o => o.pos == 35 && o.g.wf && o.dst.isOm && o.a.isTap && o.b.isZero && modIn o.mod 3 && (momlOk o)
  | .aprd o => o.wf
  | .apwr o => o.wf
  | .apadd o => o.wf
  | .hopen o => o.wf false false (o.count < 32) false (o.fmt == 0)
  | .hopenChild o => o.wf false true (o.count < 32) false (o.fmt == 1)
  | .hpush o => o.wf true true true true (hodFormat o.fmt)
  | .hpop o => o.wf true true true true (hodFormat o.fmt)
  | .hmark o => o.wf false true false false (o.fmt == 0)
  | .hmarkDrop o => o.wf false true false false (o.fmt == 1)
  | .hcut o => o.wf false true false false (o.fmt == 0)
  | .hsplit o => o.wf false true true false (o.fmt == 0)
  | .hseal o => o.wf false (o.tag < 2048) false false (o.fmt == 0)
  | .hjoin o => o.wf false true false false (o.fmt == 0)
  | .htbl o => o.wf (o.lane < 9) false false true (4 ≤ o.fmt && o.fmt ≤ 12)
  | .hstat o => o.wf true false false false (o.fmt == 0)
  | .hflushDown o => o.wf false (o.tag < 2048) (o.count < 8) false (o.fmt == 0)
  | .hflushUp o => o.wf false (o.tag < 2048) (o.count < 8) false (o.fmt == 1)
  | .hclose o => o.wf false false false false (o.fmt == 0)
  | .hcloseDiscard o => o.wf false false false false (o.fmt == 1)
  | .cpy o => o.wf 62 false (2 ^ 22)
  | .cpym o => o.wf 62 false (2 ^ 22)
  | .cpyd o => o.wf 62 false (2 ^ 22)
  | .cpyv o => o.wf 62 true 2048
  | .lsend o => o.wf 63 false (2 ^ 22)
  | .lrecv o => o.wf 63 false (2 ^ 22)
  | .credF32 o => o.wf 62 false (2 ^ 22)
  | .credBf16 o => o.wf 62 false (2 ^ 22)
  | .cbcast o => o.wf 62 false (2 ^ 22)
  | .cgath o => o.wf 62 false (2 ^ 22)
  | .upd o => o.wf 63 false (2 ^ 22)
  | .unorm o => o.wf 63 false (2 ^ 22)
  | .aaddI32 o => o.wf 63 false (2 ^ 22)
  | .aaddF32 o => o.wf 63 false (2 ^ 22)
  | .aaddBf16 o => o.wf 63 false (2 ^ 22)
  | .amaxI32 o => o.wf 63 false (2 ^ 22)
  | .amaxF32 o => o.wf 63 false (2 ^ 22)
  | .aminI32 o => o.wf 63 false (2 ^ 22)
  | .aminF32 o => o.wf 63 false (2 ^ 22)
  | .axor o => o.wf 63 false (2 ^ 22)
  | .arowadd o => o.wf 63 false (2 ^ 22)
  | .rowld o => o.wf 63 false (2 ^ 22)
  | .rowldf o => o.wf 63 false (2 ^ 22)
  | .await o => o.wf 1 true 32
  | .fencevOrder o => o.wf 1 true 1
  | .fencevDone o => o.wf 1 true 2 && o.imm == 1
  | .vstat o => o.wf 64 true 128
  | .act b r s => b < 80 && r < 15258 && s < 2
  | .rd b c => b < 80 && c < 4
  | .wr b c e => b < 80 && c < 4 && e < 64
  | .wrb b c e => b < 80 && c < 4 && e < 64
  | .wrs b c e p => b < 80 && c < 4 && e < 64 && p < 2
  | .rdx b c => b < 80 && c < 4
  | .pre b => b < 80
  | .prea => true
  | .ref b a => b < 80 && a < 2 && (a == 0 || b == 0)
  | .rsw b => b < 80
  | .gap n => n < 65536
  | .sync f => f < 4096
  | .bundleIssue b => b < 768
  | .resultLanding b ph => b < 768 && ph < 5
  | .taskEnd _ => true
  | .correctableError b => b < 768
  | .freezeEnd b => b < 768
  | .hpushRecord b => b < 768
  | .hpopCommit b => b < 768
  | .childArrival b => b < 768
  | .hjoinTimeout b => b < 768
  | .hodWindow b => b < 768
  | .copyBeat b => b < 768
  | .copyLineWrite b => b < 768
  | .senderReadyCheck b => b < 768
  | .flitDeparture b => b < 768
  | .flitArrival f => f.wf
  | .nakArrival rank _ => rank < 3072
  | .flitRetry b => b < 768
  | .takeWindowEnd => true
  | .atomicEntry b => b < 768
  | .atomicApplication ch => ch < 768
  | .rowRead b => b < 768
  | .updStart b => b < 768
  | .variableGranule _ v _ d => v < 64 && d.lo + d.n ≤ 4096
  | .variableDone _ v e => v < 64 && e.code < 16
  | .pageFault _ v code _ => v < 64 && code < 16
  | .completionTimeout _ v => v < 64
  | .vprespResume _ v => v < 64
  | .vprespAbort _ v => v < 64
  | .vpinv => true
  | .parityApplication ch => ch < 768
  | .closingPre ch => ch < 768
  | .idleRefresh ch => ch < 768
  | .refreshMiss ch => ch < 768
  | .readReturnDrop ch => ch < 768
  | .timelineStop _ => true
  | .lossEvent stack one => stack < 24 && one.all fun q => q.1 < 32 && q.2 < 80
  | .rbmarkWrite ch v => ch < 32 && v < 2 ^ 32
  | .bpladdWrite stack ch bank row => stack < 24 && ch < 32 && bank < 80 && row < 15258
  | .faqpopRead _ => true
  | .tornpopRead _ => true
  | .ydcecntRead die => die < 32
  | .lnkretryRead port => port < 36
  | .admitRead n => n < 44
  | .fcolWrite k v => k < 8 && v < 2 ^ 32
  | .hodcolWrite k v => k < 8 && v < 2 ^ 32
  | .savcolWrite k v => k < 8 && v < 2 ^ 32
  | .rangeEntryWrite k i r v => k < 8 && i < 64 && r < 4 && v < 2 ^ 64
  | .mcwinWrite die w v => die < 32 && w < 16 && v < 2 ^ 64
  | .partitionChange k bricks => k < 8 && bricks.all (· < 768)
  | .registerWrite agent r v => agent < 3 && r.wf && v < 2 ^ 256
  | .courseCycleTick => true
  | .drerelMarkerSend => true
  | .drerelMarker _ f => f < 16
  | .markerLoss rank => rank < 3072
  | .linkLoss port rank => port < 36 && rank < 3072
  | .slipNotice _ n => n.tag < 2 ^ 32 && n.rank < 3072
  | .pathCalibration paths parent first => parent.rank < 3072 && first.f < 16 && paths.all fun p => p.1 < 3072 && p.2.1 < 64
  | .launch _ _ => true
  | .preemptionRequest _ _ => true
  | .sliceBoundary k => k < 8
  | .takePoint _ => true
  | .forcedPreemption b => b < 768
  | .taskStart _ => true
  | .trapPoint b => b < 768
  | .brkctlResume b => b < 768
  | .brkctlEnd b => b < 768
  | .brkctlPark b => b < 768
  | .reset img => img.untrained.all (· < 24)
  | .memoryInitialisation t => (t.ranks.all fun r => r.1 < 3072) && t.paths.all fun p => p.1 < 3072 && p.2.1 < 64
  | .hsemRead agents => !agents.isEmpty && agents.all (· < 3)
  | .hsemWrite agent _ => agent < 3
  | .admlockWrite => true
  | .powerFrame watts => watts < 2 ^ 13
  | .clampHalt _ _ _ => true
  | .attgo => true
  | .flitAbsent b => b < 768
  | .retrySlotEnd b => b < 768
  | .stateWindowWrite b e => b < 768 && e.wf
  | .savebaseWrite v => v < 2 ^ 64
  | .measurementExtend i _ => 2 ≤ i && i ≤ 7

end Sys2Proof
end

