-- ==== Sys2Proof/Decode.lean ====
section
/-! DEFINITION. The decoder, total on any bytes, and the encoder: bundles (R29, R30), slot words (R34, R37, R55, R59 to R68)
and timeline commands (R82). -/

namespace Sys2Proof

/-- Bits [lo+n-1:lo] of a number (R5). -/
def fld (w lo n : Nat) : Nat := w / 2 ^ lo % 2 ^ n

/-- The n bytes of a number, lowest address first (R5). -/
def wordBytes : Nat → Nat → List Byte
  | 0, _ => []
  | n + 1, w => BitVec.ofNat 8 w :: wordBytes n (w / 256)

/-- The number that bytes hold, lowest address first (R5). -/
def bytesWord : List Byte → Nat
  | [] => 0
  | x :: xs => x.toNat + 256 * bytesWord xs

/-- The 12 bits of an operand descriptor (R37). -/
def encodeOpd : Opd → Nat
  | .reg i => i
  | .latch c u => 1024 + 32 * c + 8 * u
  | .slatch u => 1280 + u
  | .tap aw lane => 1536 + 128 * aw.toNat + lane
  | .loop l => 1792 + l
  | .imm v => 2048 + v
  | .om i => 3072 + i
  | .acc i => 3328 + i
  | .pred q i => 3584 + 16 * q.toNat + i

/-- The operand that 12 bits name; none for a reserved sub-encoding (R37). -/
def decodeOpd (d : Nat) : Option Opd :=
  if d < 1024 then some (.reg d)
  else if d < 1280 then
    if (d - 1024) % 8 = 0 ∧ (d - 1024) / 8 % 4 < 3 then some (.latch ((d - 1024) / 32) ((d - 1024) / 8 % 4)) else none
  else if d < 1536 then if d < 1282 then some (.slatch (d - 1280)) else none
  else if d < 1792 then
    if (d - 1536) % 128 < 16 then some (.tap ((d - 1536) / 128 == 1) ((d - 1536) % 128)) else none
  else if d < 2048 then if d < 1798 then some (.loop (d - 1792)) else none
  else if d < 3072 then some (.imm (d - 2048))
  else if d < 3328 then if d < 3088 then some (.om (d - 3072)) else none
  else if d < 3584 then if d < 3344 then some (.acc (d - 3328)) else none
  else if d < 3616 then some (.pred ((d - 3584) / 16 == 1) ((d - 3584) % 16))
  else none

/-- Bits [63:55] of a slot word (R34). -/
def encodeGuard (g : Guard) : Nat := 256 * g.inv.toNat + 128 * g.gk.toNat + 16 * g.gc + g.gi

def decodeGuard (n : Nat) : Guard := ⟨fld n 8 1 == 1, fld n 7 1 == 1, fld n 4 3, fld n 0 4⟩

/-- A slot word from its guard, opcode and low 46 bits (R34). -/
def packWord (g : Guard) (opc low : Nat) : Nat := encodeGuard g * 2 ^ 55 + opc * 2 ^ 46 + low

def SlotOp.low (o : SlotOp) : Nat :=
  encodeOpd o.dst * 2 ^ 34 + encodeOpd o.a * 2 ^ 22 + encodeOpd o.b * 2 ^ 10 + o.mod

def CtlOp.low (o : CtlOp) : Nat := encodeOpd o.a * 2 ^ 34 + o.imm

def RingOp.low (o : RingOp) : Nat :=
  o.aw.toNat * 2 ^ 45 + o.lane * 2 ^ 41 + encodeOpd o.base * 2 ^ 29 + o.line * 2 ^ 17 + o.mod

def ApOp.low (o : ApOp) : Nat :=
  encodeOpd o.tile * 2 ^ 34 + encodeOpd o.row * 2 ^ 22 + o.aw.toNat * 2 ^ 21 + o.lane * 2 ^ 17 + o.seg * 2 ^ 15

def HdOp.low (o : HdOp) : Nat :=
  o.aw.toNat * 2 ^ 45 + o.lane * 2 ^ 41 + o.tag * 2 ^ 18 + o.count * 2 ^ 12 + o.table * 2 ^ 4 + o.fmt

def EnOp.low (o : EnOp) : Nat := encodeOpd o.a * 2 ^ 34 + encodeOpd o.b * 2 ^ 22 + o.imm

/-- The common layout read back (R34). -/
def parseSlot (pos w : Nat) : Option SlotOp := do
  let dst ← decodeOpd (fld w 34 12)
  let a ← decodeOpd (fld w 22 12)
  let b ← decodeOpd (fld w 10 12)
  pure ⟨pos, decodeGuard (fld w 55 9), dst, a, b, fld w 0 10⟩

def parseCtl (w : Nat) : Option CtlOp := do
  let a ← decodeOpd (fld w 34 12)
  pure ⟨decodeGuard (fld w 55 9), a, fld w 0 34⟩

def parseRing (pos w : Nat) : Option RingOp := do
  let base ← decodeOpd (fld w 29 12)
  if fld w 10 7 = 0 then
    pure ⟨pos, decodeGuard (fld w 55 9), fld w 45 1 == 1, fld w 41 4, base, fld w 17 12, fld w 0 10⟩
  else none

def parseAp (pos w : Nat) : Option ApOp := do
  let tile ← decodeOpd (fld w 34 12)
  let row ← decodeOpd (fld w 22 12)
  if fld w 0 15 = 0 then
    pure ⟨pos, decodeGuard (fld w 55 9), tile, row, fld w 21 1 == 1, fld w 17 4, fld w 15 2⟩
  else none

def parseHd (w : Nat) : Option HdOp :=
  if fld w 34 7 = 0 ∧ fld w 10 2 = 0 then
    some ⟨decodeGuard (fld w 55 9), fld w 45 1 == 1, fld w 41 4, fld w 18 16, fld w 12 6, fld w 4 6, fld w 0 4⟩
  else none

def parseEn (w : Nat) : Option EnOp := do
  let a ← decodeOpd (fld w 34 12)
  let b ← decodeOpd (fld w 22 12)
  pure ⟨decodeGuard (fld w 55 9), a, b, fld w 0 22⟩

/-- The low bits of an integer family's opcode (R57). -/
def ETy.code : ETy → Nat
  | .i8 => 0
  | .i32 => 1
  | .i16 => 2

/-- The ctl map (R59). -/
def buildCtl (opc : Nat) (o : CtlOp) : Option Instr :=
  match opc with
  | 0x001 => some (.branch o)
  | 0x003 => some (.branchReg o)
  | 0x004 => some (.call o)
  | 0x008 => some (.loop o)
  | 0x009 => some (.lbrk o)
  | 0x010 => some (.setstep o)
  | 0x011 => some (.rot o)
  | 0x012 => some (.rotset o)
  | 0x018 => some (.settle o)
  | 0x019 => some (.yield o)
  | 0x01A => some (.drift o)
  | 0x01B => some (.trap o)
  | 0x01C => some (.ppop o)
  | 0x01D => some (.endTask o)
  | _ => none

/-- The scalar map (R60). -/
def buildScalar (opc : Nat) (o : SlotOp) : Option Instr :=
  match opc with
  | 0x001 => some (.movI64 o)
  | 0x002 => some (.addI64 o)
  | 0x003 => some (.subI64 o)
  | 0x004 => some (.and o)
  | 0x005 => some (.or o)
  | 0x006 => some (.xor o)
  | 0x007 => some (.shl o)
  | 0x008 => some (.shr o)
  | 0x009 => some (.sar o)
  | 0x00A => some (.minI64 o)
  | 0x00B => some (.maxI64 o)
  | 0x00C => some (.mulI64 o)
  | 0x00D => some (.mulhI64 o)
  | 0x010 => some (.cmpeqI64 o)
  | 0x011 => some (.cmpneI64 o)
  | 0x012 => some (.cmpltI64 o)
  | 0x013 => some (.cmpleI64 o)
  | 0x014 => some (.qand o)
  | 0x015 => some (.qor o)
  | 0x016 => some (.qxor o)
  | 0x017 => some (.qnot o)
  | 0x018 => some (.bfx o)
  | 0x019 => some (.bfi o)
  | 0x01A => some (.popc o)
  | 0x01B => some (.clz o)
  | 0x020 => some (.ld o)
  | 0x021 => some (.st o)
  | 0x030 => some (.mfsr o)
  | 0x031 => some (.mtsr o)
  | 0x034 => some (.wid o)
  | _ => none

/-- The X map (R61). -/
def buildX (opc : Nat) (o : SlotOp) : Option Instr :=
  match opc with
  | 0x001 => some (.vmov o)
  | 0x004 => some (.vand o)
  | 0x005 => some (.vor o)
  | 0x006 => some (.vxor o)
  | 0x007 => some (.vandn o)
  | 0x008 => some (.vshlT .i8 o)
  | 0x009 => some (.vshlT .i32 o)
  | 0x00A => some (.vshlT .i16 o)
  | 0x00C => some (.vshrT .i8 o)
  | 0x00D => some (.vshrT .i32 o)
  | 0x00E => some (.vshrT .i16 o)
  | 0x010 => some (.vaddT .i8 o)
  | 0x011 => some (.vaddT .i32 o)
  | 0x012 => some (.vaddT .i16 o)
  | 0x014 => some (.vsubT .i8 o)
  | 0x015 => some (.vsubT .i32 o)
  | 0x016 => some (.vsubT .i16 o)
  | 0x018 => some (.vminT .i8 o)
  | 0x019 => some (.vminT .i32 o)
  | 0x01A => some (.vminT .i16 o)
  | 0x01C => some (.vmaxT .i8 o)
  | 0x01D => some (.vmaxT .i32 o)
  | 0x01E => some (.vmaxT .i16 o)
  | 0x020 => some (.vcmpeqT .i8 o)
  | 0x021 => some (.vcmpeqT .i32 o)
  | 0x022 => some (.vcmpeqT .i16 o)
  | 0x024 => some (.vcmpltT .i8 o)
  | 0x025 => some (.vcmpltT .i32 o)
  | 0x026 => some (.vcmpltT .i16 o)
  | 0x028 => some (.vcmpleT .i8 o)
  | 0x029 => some (.vcmpleT .i32 o)
  | 0x02A => some (.vcmpleT .i16 o)
  | 0x02C => some (.vsel o)
  | 0x030 => some (.pand o)
  | 0x031 => some (.por o)
  | 0x032 => some (.pxor o)
  | 0x033 => some (.pnot o)
  | 0x040 => some (.vaddF false o)
  | 0x041 => some (.vaddF true o)
  | 0x042 => some (.vsubF false o)
  | 0x043 => some (.vsubF true o)
  | 0x044 => some (.vminF false o)
  | 0x045 => some (.vminF true o)
  | 0x046 => some (.vmaxF false o)
  | 0x047 => some (.vmaxF true o)
  | 0x048 => some (.vcmpeqF false o)
  | 0x049 => some (.vcmpeqF true o)
  | 0x04A => some (.vcmpltF false o)
  | 0x04B => some (.vcmpltF true o)
  | 0x04C => some (.vcmpleF false o)
  | 0x04D => some (.vcmpleF true o)
  | 0x04E => some (.vabsF false o)
  | 0x04F => some (.vabsF true o)
  | 0x060 => some (.vcvt o)
  | _ => none

/-- The Y map (R62). -/
def buildY (opc : Nat) (o : SlotOp) : Option Instr :=
  match opc with
  | 0x010 => some (.vmulF32 o)
  | 0x011 => some (.vmulBf16 o)
  | 0x012 => some (.vfmaF32 o)
  | 0x013 => some (.vfmaBf16 o)
  | 0x014 => some (.vfmsF32 o)
  | 0x018 => some (.vfmaF64 o)
  | 0x019 => some (.vmulF64 o)
  | 0x01A => some (.vaddF64 o)
  | 0x020 => some (.vmulI32 o)
  | 0x021 => some (.vmulhI32 o)
  | 0x022 => some (.vdotI8 o)
  | 0x023 => some (.vdotI16 o)
  | _ => none

/-- The Z map (R63). -/
def buildZ (opc : Nat) (o : SlotOp) : Option Instr :=
  match opc with
  | 0x001 => some (.vshuf o)
  | 0x002 => some (.vhbswap o)
  | 0x003 => some (.vhbld o)
  | 0x008 => some (.vshaddI32 o)
  | 0x009 => some (.vshaddF32 o)
  | 0x00A => some (.vshmaxF32 o)
  | 0x00B => some (.vshminF32 o)
  | 0x00C => some (.vshaddBf16 o)
  | 0x010 => some (.vrcpF32 o)
  | 0x011 => some (.vrsqF32 o)
  | 0x012 => some (.vexp2F32 o)
  | 0x013 => some (.vlog2F32 o)
  | 0x018 => some (.vdivF32 o)
  | 0x019 => some (.vsqrtF32 o)
  | 0x020 => some (.vxc o)
  | 0x024 => some (.vtap o)
  | 0x025 => some (.vput o)
  | _ => none

/-- The ring map (R64). -/
def buildRing (opc : Nat) (o : RingOp) : Option Instr :=
  match opc with
  | 0x001 => some (.mrd o)
  | 0x002 => some (.mwr o)
  | 0x003 => some (.mrdt o)
  | 0x004 => some (.mwrm o)
  | 0x005 => some (.mstag o)
  | _ => none

/-- The mx map (R65). -/
def buildMx (opc : Nat) (o : SlotOp) : Option Instr :=
  match opc with
  | 0x001 => some (.mma o)
  | 0x002 => some (.mmat o)
  | 0x003 => some (.mzero o)
  | 0x004 => some (.mdrain o)
  | 0x005 => some (.mclaim o)
  | 0x006 => some (.mrel o)
  | 0x007 => some (.moml o)
  | _ => none

/-- The ap map (R66). -/
def buildAp (opc : Nat) (o : ApOp) : Option Instr :=
  match opc with
  | 0x001 => some (.aprd o)
  | 0x002 => some (.apwr o)
  | 0x003 => some (.apadd o)
  | _ => none

/-- The hd map (R67, R269). -/
def buildHd (opc : Nat) (o : HdOp) : Option Instr :=
  match opc with
  | 0x001 => some (if o.fmt = 1 then .hopenChild o else .hopen o)
  | 0x002 => some (.hpush o)
  | 0x003 => some (.hpop o)
  | 0x004 => some (if o.fmt = 1 then .hmarkDrop o else .hmark o)
  | 0x005 => some (.hcut o)
  | 0x006 => some (.hsplit o)
  | 0x007 => some (.hseal o)
  | 0x008 => some (.hjoin o)
  | 0x009 => some (.htbl o)
  | 0x00A => some (.hstat o)
  | 0x00B => some (if o.fmt = 1 then .hflushUp o else .hflushDown o)
  | 0x00C => some (if o.fmt = 1 then .hcloseDiscard o else .hclose o)
  | _ => none

/-- The en map (R68). -/
def buildEn (opc : Nat) (o : EnOp) : Option Instr :=
  match opc with
  | 0x010 => some (.cpy o)
  | 0x011 => some (.cpym o)
  | 0x012 => some (.cpyd o)
  | 0x013 => some (.cpyv o)
  | 0x020 => some (.lsend o)
  | 0x021 => some (.lrecv o)
  | 0x030 => some (.credF32 o)
  | 0x031 => some (.credBf16 o)
  | 0x032 => some (.cbcast o)
  | 0x033 => some (.cgath o)
  | 0x040 => some (.upd o)
  | 0x041 => some (.unorm o)
  | 0x050 => some (.aaddI32 o)
  | 0x051 => some (.aaddF32 o)
  | 0x052 => some (.aaddBf16 o)
  | 0x053 => some (.amaxI32 o)
  | 0x054 => some (.amaxF32 o)
  | 0x055 => some (.aminI32 o)
  | 0x056 => some (.aminF32 o)
  | 0x057 => some (.axor o)
  | 0x058 => some (.arowadd o)
  | 0x059 => some (.rowld o)
  | 0x05A => some (.rowldf o)
  | 0x060 => some (.await o)
  | 0x061 => some (if o.imm = 0 then .fencevOrder o else .fencevDone o)
  | 0x062 => some (.vstat o)
  | _ => none

/-- The operation that a word's opcode names in the class of its position (R53), its fields read but not yet checked. -/
def rawSlot (pos w : Nat) : Option Instr :=
  let opc := fld w 46 9
  if pos = 0 then (parseCtl w).bind (buildCtl opc)
  else if isScalarPos pos then (parseSlot pos w).bind (buildScalar opc)
  else if isUnitPos 0 pos then (parseSlot pos w).bind (buildX opc)
  else if isUnitPos 1 pos then (parseSlot pos w).bind (buildY opc)
  else if isUnitPos 2 pos then (parseSlot pos w).bind (buildZ opc)
  else if isRingPos pos then (parseRing pos w).bind (buildRing opc)
  else if pos = 35 then (parseSlot pos w).bind (buildMx opc)
  else if isApPos pos then (parseAp pos w).bind (buildAp opc)
  else if pos = 38 then (parseHd w).bind (buildHd opc)
  else if pos = 39 then (parseEn w).bind (buildEn opc)
  else none

/-- The decoder of slot words: none for every word that R52 or R73 makes illegal at decode. Opcode 0 (NOP, R35) is no
operation; the fetch treats the NOP word itself apart. -/
def decodeSlot (pos w : Nat) : Option Instr :=
  if w < 2 ^ 64 then (rawSlot pos w).filter Instr.wf else none

/-- A timeline command's fields read from its word; none for a reserved opcode or a nonzero zero field (R82). -/
def rawTimeline (w : Nat) : Option Instr :=
  match fld w 28 4 with
  | 0x1 => if fld w 0 6 = 0 then some (.act (fld w 21 7) (fld w 7 14) (fld w 6 1)) else none
  | 0x2 => if fld w 0 19 = 0 then some (.rd (fld w 21 7) (fld w 19 2)) else none
  | 0x3 => if fld w 0 13 = 0 then some (.wr (fld w 21 7) (fld w 19 2) (fld w 13 6)) else none
  | 0x4 => if fld w 0 13 = 0 then some (.wrb (fld w 21 7) (fld w 19 2) (fld w 13 6)) else none
  | 0x5 => if fld w 0 12 = 0 then some (.wrs (fld w 21 7) (fld w 19 2) (fld w 13 6) (fld w 12 1)) else none
  | 0x6 => if fld w 0 19 = 0 then some (.rdx (fld w 21 7) (fld w 19 2)) else none
  | 0x7 => if fld w 0 21 = 0 then some (.pre (fld w 21 7)) else none
  | 0x8 => if fld w 0 28 = 0 then some .prea else none
  | 0x9 => if fld w 0 20 = 0 then some (.ref (fld w 21 7) (fld w 20 1)) else none
  | 0xA => if fld w 0 21 = 0 then some (.rsw (fld w 21 7)) else none
  | 0xB => if fld w 16 12 = 0 then some (.gap (fld w 0 16)) else none
  | 0xC => if fld w 12 16 = 0 then some (.sync (fld w 0 12)) else none
  | _ => none

/-- The decoder of timeline commands (R82). -/
def decodeTimeline (w : Nat) : Option Instr :=
  if w < 2 ^ 32 then (rawTimeline w).filter Instr.wf else none

/-- The word of a timeline command (R82). -/
def encodeTimeline : Instr → Option Nat
  | .act b r s => some (0x1 * 2 ^ 28 + b * 2 ^ 21 + r * 2 ^ 7 + s * 2 ^ 6)
  | .rd b c => some (0x2 * 2 ^ 28 + b * 2 ^ 21 + c * 2 ^ 19)
  | .wr b c e => some (0x3 * 2 ^ 28 + b * 2 ^ 21 + c * 2 ^ 19 + e * 2 ^ 13)
  | .wrb b c e => some (0x4 * 2 ^ 28 + b * 2 ^ 21 + c * 2 ^ 19 + e * 2 ^ 13)
  | .wrs b c e p => some (0x5 * 2 ^ 28 + b * 2 ^ 21 + c * 2 ^ 19 + e * 2 ^ 13 + p * 2 ^ 12)
  | .rdx b c => some (0x6 * 2 ^ 28 + b * 2 ^ 21 + c * 2 ^ 19)
  | .pre b => some (0x7 * 2 ^ 28 + b * 2 ^ 21)
  | .prea => some (0x8 * 2 ^ 28)
  | .ref b a => some (0x9 * 2 ^ 28 + b * 2 ^ 21 + a * 2 ^ 20)
  | .rsw b => some (0xA * 2 ^ 28 + b * 2 ^ 21)
  | .gap n => some (0xB * 2 ^ 28 + n)
  | .sync f => some (0xC * 2 ^ 28 + f)
  | _ => none

/-- The slot position and the word of a slot operation (R34, R55, R59 to R68); none for commands and events. -/
def encodeSlot : Instr → Option (Nat × Nat)
  | .branch o => some (0, packWord o.g 0x001 o.low)
  | .branchReg o => some (0, packWord o.g 0x003 o.low)
  | .call o => some (0, packWord o.g 0x004 o.low)
  | .loop o => some (0, packWord o.g 0x008 o.low)
  | .lbrk o => some (0, packWord o.g 0x009 o.low)
  | .setstep o => some (0, packWord o.g 0x010 o.low)
  | .rot o => some (0, packWord o.g 0x011 o.low)
  | .rotset o => some (0, packWord o.g 0x012 o.low)
  | .settle o => some (0, packWord o.g 0x018 o.low)
  | .yield o => some (0, packWord o.g 0x019 o.low)
  | .drift o => some (0, packWord o.g 0x01A o.low)
  | .trap o => some (0, packWord o.g 0x01B o.low)
  | .ppop o => some (0, packWord o.g 0x01C o.low)
  | .endTask o => some (0, packWord o.g 0x01D o.low)
  | .movI64 o => some (o.pos, packWord o.g 0x001 o.low)
  | .addI64 o => some (o.pos, packWord o.g 0x002 o.low)
  | .subI64 o => some (o.pos, packWord o.g 0x003 o.low)
  | .and o => some (o.pos, packWord o.g 0x004 o.low)
  | .or o => some (o.pos, packWord o.g 0x005 o.low)
  | .xor o => some (o.pos, packWord o.g 0x006 o.low)
  | .shl o => some (o.pos, packWord o.g 0x007 o.low)
  | .shr o => some (o.pos, packWord o.g 0x008 o.low)
  | .sar o => some (o.pos, packWord o.g 0x009 o.low)
  | .minI64 o => some (o.pos, packWord o.g 0x00A o.low)
  | .maxI64 o => some (o.pos, packWord o.g 0x00B o.low)
  | .mulI64 o => some (o.pos, packWord o.g 0x00C o.low)
  | .mulhI64 o => some (o.pos, packWord o.g 0x00D o.low)
  | .cmpeqI64 o => some (o.pos, packWord o.g 0x010 o.low)
  | .cmpneI64 o => some (o.pos, packWord o.g 0x011 o.low)
  | .cmpltI64 o => some (o.pos, packWord o.g 0x012 o.low)
  | .cmpleI64 o => some (o.pos, packWord o.g 0x013 o.low)
  | .qand o => some (o.pos, packWord o.g 0x014 o.low)
  | .qor o => some (o.pos, packWord o.g 0x015 o.low)
  | .qxor o => some (o.pos, packWord o.g 0x016 o.low)
  | .qnot o => some (o.pos, packWord o.g 0x017 o.low)
  | .bfx o => some (o.pos, packWord o.g 0x018 o.low)
  | .bfi o => some (o.pos, packWord o.g 0x019 o.low)
  | .popc o => some (o.pos, packWord o.g 0x01A o.low)
  | .clz o => some (o.pos, packWord o.g 0x01B o.low)
  | .ld o => some (o.pos, packWord o.g 0x020 o.low)
  | .st o => some (o.pos, packWord o.g 0x021 o.low)
  | .mfsr o => some (o.pos, packWord o.g 0x030 o.low)
  | .mtsr o => some (o.pos, packWord o.g 0x031 o.low)
  | .wid o => some (o.pos, packWord o.g 0x034 o.low)
  | .vmov o => some (o.pos, packWord o.g 0x001 o.low)
  | .vand o => some (o.pos, packWord o.g 0x004 o.low)
  | .vor o => some (o.pos, packWord o.g 0x005 o.low)
  | .vxor o => some (o.pos, packWord o.g 0x006 o.low)
  | .vandn o => some (o.pos, packWord o.g 0x007 o.low)
  | .vshlT t o => some (o.pos, packWord o.g (0x008 + t.code) o.low)
  | .vshrT t o => some (o.pos, packWord o.g (0x00C + t.code) o.low)
  | .vaddT t o => some (o.pos, packWord o.g (0x010 + t.code) o.low)
  | .vsubT t o => some (o.pos, packWord o.g (0x014 + t.code) o.low)
  | .vminT t o => some (o.pos, packWord o.g (0x018 + t.code) o.low)
  | .vmaxT t o => some (o.pos, packWord o.g (0x01C + t.code) o.low)
  | .vcmpeqT t o => some (o.pos, packWord o.g (0x020 + t.code) o.low)
  | .vcmpltT t o => some (o.pos, packWord o.g (0x024 + t.code) o.low)
  | .vcmpleT t o => some (o.pos, packWord o.g (0x028 + t.code) o.low)
  | .vsel o => some (o.pos, packWord o.g 0x02C o.low)
  | .pand o => some (o.pos, packWord o.g 0x030 o.low)
  | .por o => some (o.pos, packWord o.g 0x031 o.low)
  | .pxor o => some (o.pos, packWord o.g 0x032 o.low)
  | .pnot o => some (o.pos, packWord o.g 0x033 o.low)
  | .vaddF bf o => some (o.pos, packWord o.g (0x040 + bf.toNat) o.low)
  | .vsubF bf o => some (o.pos, packWord o.g (0x042 + bf.toNat) o.low)
  | .vminF bf o => some (o.pos, packWord o.g (0x044 + bf.toNat) o.low)
  | .vmaxF bf o => some (o.pos, packWord o.g (0x046 + bf.toNat) o.low)
  | .vcmpeqF bf o => some (o.pos, packWord o.g (0x048 + bf.toNat) o.low)
  | .vcmpltF bf o => some (o.pos, packWord o.g (0x04A + bf.toNat) o.low)
  | .vcmpleF bf o => some (o.pos, packWord o.g (0x04C + bf.toNat) o.low)
  | .vabsF bf o => some (o.pos, packWord o.g (0x04E + bf.toNat) o.low)
  | .vcvt o => some (o.pos, packWord o.g 0x060 o.low)
  | .vmulF32 o => some (o.pos, packWord o.g 0x010 o.low)
  | .vmulBf16 o => some (o.pos, packWord o.g 0x011 o.low)
  | .vfmaF32 o => some (o.pos, packWord o.g 0x012 o.low)
  | .vfmaBf16 o => some (o.pos, packWord o.g 0x013 o.low)
  | .vfmsF32 o => some (o.pos, packWord o.g 0x014 o.low)
  | .vfmaF64 o => some (o.pos, packWord o.g 0x018 o.low)
  | .vmulF64 o => some (o.pos, packWord o.g 0x019 o.low)
  | .vaddF64 o => some (o.pos, packWord o.g 0x01A o.low)
  | .vmulI32 o => some (o.pos, packWord o.g 0x020 o.low)
  | .vmulhI32 o => some (o.pos, packWord o.g 0x021 o.low)
  | .vdotI8 o => some (o.pos, packWord o.g 0x022 o.low)
  | .vdotI16 o => some (o.pos, packWord o.g 0x023 o.low)
  | .vshuf o => some (o.pos, packWord o.g 0x001 o.low)
  | .vhbswap o => some (o.pos, packWord o.g 0x002 o.low)
  | .vhbld o => some (o.pos, packWord o.g 0x003 o.low)
  | .vshaddI32 o => some (o.pos, packWord o.g 0x008 o.low)
  | .vshaddF32 o => some (o.pos, packWord o.g 0x009 o.low)
  | .vshmaxF32 o => some (o.pos, packWord o.g 0x00A o.low)
  | .vshminF32 o => some (o.pos, packWord o.g 0x00B o.low)
  | .vshaddBf16 o => some (o.pos, packWord o.g 0x00C o.low)
  | .vrcpF32 o => some (o.pos, packWord o.g 0x010 o.low)
  | .vrsqF32 o => some (o.pos, packWord o.g 0x011 o.low)
  | .vexp2F32 o => some (o.pos, packWord o.g 0x012 o.low)
  | .vlog2F32 o => some (o.pos, packWord o.g 0x013 o.low)
  | .vdivF32 o => some (o.pos, packWord o.g 0x018 o.low)
  | .vsqrtF32 o => some (o.pos, packWord o.g 0x019 o.low)
  | .vxc o => some (o.pos, packWord o.g 0x020 o.low)
  | .vtap o => some (o.pos, packWord o.g 0x024 o.low)
  | .vput o => some (o.pos, packWord o.g 0x025 o.low)
  | .mma o => some (o.pos, packWord o.g 0x001 o.low)
  | .mmat o => some (o.pos, packWord o.g 0x002 o.low)
  | .mzero o => some (o.pos, packWord o.g 0x003 o.low)
  | .mdrain o => some (o.pos, packWord o.g 0x004 o.low)
  | .mclaim o => some (o.pos, packWord o.g 0x005 o.low)
  | .mrel o => some (o.pos, packWord o.g 0x006 o.low)
  | .moml o => some (o.pos, packWord o.g 0x007 o.low)
  | .mrd o => some (o.pos, packWord o.g 0x001 o.low)
  | .mwr o => some (o.pos, packWord o.g 0x002 o.low)
  | .mrdt o => some (o.pos, packWord o.g 0x003 o.low)
  | .mwrm o => some (o.pos, packWord o.g 0x004 o.low)
  | .mstag o => some (o.pos, packWord o.g 0x005 o.low)
  | .aprd o => some (o.pos, packWord o.g 0x001 o.low)
  | .apwr o => some (o.pos, packWord o.g 0x002 o.low)
  | .apadd o => some (o.pos, packWord o.g 0x003 o.low)
  | .hopen o => some (38, packWord o.g 0x001 o.low)
  | .hopenChild o => some (38, packWord o.g 0x001 o.low)
  | .hpush o => some (38, packWord o.g 0x002 o.low)
  | .hpop o => some (38, packWord o.g 0x003 o.low)
  | .hmark o => some (38, packWord o.g 0x004 o.low)
  | .hmarkDrop o => some (38, packWord o.g 0x004 o.low)
  | .hcut o => some (38, packWord o.g 0x005 o.low)
  | .hsplit o => some (38, packWord o.g 0x006 o.low)
  | .hseal o => some (38, packWord o.g 0x007 o.low)
  | .hjoin o => some (38, packWord o.g 0x008 o.low)
  | .htbl o => some (38, packWord o.g 0x009 o.low)
  | .hstat o => some (38, packWord o.g 0x00A o.low)
  | .hflushDown o => some (38, packWord o.g 0x00B o.low)
  | .hflushUp o => some (38, packWord o.g 0x00B o.low)
  | .hclose o => some (38, packWord o.g 0x00C o.low)
  | .hcloseDiscard o => some (38, packWord o.g 0x00C o.low)
  | .cpy o => some (39, packWord o.g 0x010 o.low)
  | .cpym o => some (39, packWord o.g 0x011 o.low)
  | .cpyd o => some (39, packWord o.g 0x012 o.low)
  | .cpyv o => some (39, packWord o.g 0x013 o.low)
  | .lsend o => some (39, packWord o.g 0x020 o.low)
  | .lrecv o => some (39, packWord o.g 0x021 o.low)
  | .credF32 o => some (39, packWord o.g 0x030 o.low)
  | .credBf16 o => some (39, packWord o.g 0x031 o.low)
  | .cbcast o => some (39, packWord o.g 0x032 o.low)
  | .cgath o => some (39, packWord o.g 0x033 o.low)
  | .upd o => some (39, packWord o.g 0x040 o.low)
  | .unorm o => some (39, packWord o.g 0x041 o.low)
  | .aaddI32 o => some (39, packWord o.g 0x050 o.low)
  | .aaddF32 o => some (39, packWord o.g 0x051 o.low)
  | .aaddBf16 o => some (39, packWord o.g 0x052 o.low)
  | .amaxI32 o => some (39, packWord o.g 0x053 o.low)
  | .amaxF32 o => some (39, packWord o.g 0x054 o.low)
  | .aminI32 o => some (39, packWord o.g 0x055 o.low)
  | .aminF32 o => some (39, packWord o.g 0x056 o.low)
  | .axor o => some (39, packWord o.g 0x057 o.low)
  | .arowadd o => some (39, packWord o.g 0x058 o.low)
  | .rowld o => some (39, packWord o.g 0x059 o.low)
  | .rowldf o => some (39, packWord o.g 0x05A o.low)
  | .await o => some (39, packWord o.g 0x060 o.low)
  | .fencevOrder o => some (39, packWord o.g 0x061 o.low)
  | .fencevDone o => some (39, packWord o.g 0x061 o.low)
  | .vstat o => some (39, packWord o.g 0x062 o.low)
  | _ => none

/-- The words of a well-formed operation: the 32-bit word of a timeline command, or the header and the slot word of the
bundle that holds the operation alone (R29, R30). Events have no encoding. -/
def encode (i : Instr) : Option (List Nat) :=
  match encodeTimeline i with
  | some w => some [w]
  | none => (encodeSlot i).map fun p => [2 ^ p.1, p.2]

/-- Decoding reads back what encoding wrote: one word of a timeline, or a bundle with one slot. -/
def decodeWords : List Nat → Option Instr
  | [w] => decodeTimeline w
  | [h, w] => (List.range 40).findSome? fun p => if h = 2 ^ p then decodeSlot p w else none
  | _ => none

/-- A bundle header (R30). -/
structure Header where
  gap : Nat
  yield : Bool
  settle : Bool
  elide : Bool
  rep : Nat
  mask : Nat
  deriving DecidableEq, Repr

/-- R30: reserved header bits are zero. -/
def decodeHeader (w : Nat) : Option Header :=
  if fld w 56 8 = 0 ∧ fld w 48 1 = 0 then
    some ⟨fld w 52 4, fld w 51 1 == 1, fld w 50 1 == 1, fld w 49 1 == 1, fld w 40 8, fld w 0 40⟩
  else none

/-- The slot positions a mask names, in increasing order (R29). -/
def maskPositions (m : Nat) : List Nat := (List.range 40).filter fun k => fld m k 1 == 1

/-- Length in bytes of a bundle with this mask (R29). -/
def bundleBytes (m : Nat) : Nat := 8 * (1 + (maskPositions m).length)

/-- R82, R29: the instruction the decoder reads from the first nbits of an instruction whose further bits are zero: a timeline
command (32 bits), or a bundle's header and the word of its one slot (128 bits). The number is laid out as the bytes that
hold it, lowest address first, and read back from them. -/
def decodeTableWord (nbits w : Nat) : Option Instr :=
  if nbits ≤ 32 then decodeTimeline (bytesWord (wordBytes 4 (w % 2 ^ nbits)))
  else
    let bs := wordBytes 16 (w % 2 ^ nbits)
    decodeWords [bytesWord (bs.take 8), bytesWord (bs.drop 8)]

end Sys2Proof
end

