-- ==== Sys2Proof/Machine/Mem.lean ====
section
/-! DEFINITION. Sparse tables and memories in canonical form, and the line, word and element views of their bytes
(R5, R200, R218). -/

namespace Sys2Proof.Machine

/-- The entry of a table, if it has one. -/
def tfind {α : Type} : Table α → Nat → Option α
  | [], _ => none
  | (k', v) :: t, k => if k = k' then some v else tfind t k

/-- The value of a table whose unlisted keys hold d. -/
def tget {α : Type} (d : α) (t : Table α) (k : Nat) : α := (tfind t k).getD d

/-- Insert or replace an entry; keys stay strictly rising. -/
def tins {α : Type} : Table α → Nat → α → Table α
  | [], k, v => [(k, v)]
  | (k', v') :: t, k, v =>
    if k < k' then (k, v) :: (k', v') :: t
    else if k = k' then (k, v) :: t
    else (k', v') :: tins t k v

/-- Remove an entry. -/
def tdel {α : Type} (t : Table α) (k : Nat) : Table α := t.filter fun p => p.1 != k

/-- Write a table whose unlisted keys hold d: writing d removes the entry. -/
def tput {α : Type} [DecidableEq α] (d : α) (t : Table α) (k : Nat) (v : α) : Table α :=
  if v = d then tdel t k else tins t k v

/-- Keys strictly rising from a lower bound. -/
def risingFrom {α : Type} : Nat → Table α → Bool
  | _, [] => true
  | lo, (k, _) :: t => lo ≤ k && risingFrom (k + 1) t

/-- The canonical form of a table whose unlisted keys hold d. -/
def tableWf {α : Type} [DecidableEq α] (d : α) (t : Table α) : Bool := risingFrom 0 t && t.all fun p => !(decide (p.2 = d))

/-- What a byte of memory that nothing has written reads as: memory initialisation and the task's start leave zero
(R396, R402). -/
def unwrittenByte : Byte := 0

/-- The canonical form of a memory. -/
def Memory.wf (m : List Host.Cell) : Bool := tableWf unwrittenByte m

/-- One byte of a memory. -/
def readByte (m : List Host.Cell) (a : Nat) : Byte := tget unwrittenByte m a

/-- Write one byte of a memory. -/
def writeByte (m : List Host.Cell) (a : Nat) (v : Byte) : List Host.Cell := tput unwrittenByte m a v

/-- n bytes from address a, lowest first. -/
def readBytes (m : List Host.Cell) : Nat → Nat → List Byte
  | _, 0 => []
  | a, n + 1 => readByte m a :: readBytes m (a + 1) n

/-- Write bytes from address a upwards. -/
def writeBytes (m : List Host.Cell) : Nat → List Byte → List Host.Cell
  | _, [] => m
  | a, v :: vs => writeBytes (writeByte m a v) (a + 1) vs

/-- The bytes of a line, byte 0 first (R157). -/
def lineBytes (l : Line) : List Byte := wordBytes 64 l.toNat

/-- The line that 64 bytes hold. -/
def bytesLine (bs : List Byte) : Line := BitVec.ofNat 512 (bytesWord bs)

def readLine (m : List Host.Cell) (a : Nat) : Line := bytesLine (readBytes m a 64)

def writeLine (m : List Host.Cell) (a : Nat) (l : Line) : List Host.Cell := writeBytes m a (lineBytes l)

/-- Read n bytes as a little-endian number (R5). -/
def readNat (m : List Host.Cell) (a n : Nat) : Nat := bytesWord (readBytes m a n)

/-- Write the low n bytes of a number, little-endian (R5). -/
def writeNat (m : List Host.Cell) (a n v : Nat) : List Host.Cell := writeBytes m a (wordBytes n v)

/-- n lines from byte address a. -/
def readLines (m : List Host.Cell) (a n : Nat) : List Line := (List.range n).map fun i => readLine m (a + 64 * i)

def writeLines (m : List Host.Cell) (a : Nat) (ls : List Line) : List Host.Cell :=
  (ls.zipIdx).foldl (fun m p => writeLine m (a + 64 * p.2) p.1) m

/-- The elements of width w bits of a line, element 0 first (R200, R218). -/
def elems (w : Nat) (l : Line) : List Nat := (List.range (512 / w)).map fun e => l.toNat / 2 ^ (w * e) % 2 ^ w

/-- One element of a line (R218). -/
def elem (w : Nat) (l : Line) (e : Nat) : Nat := l.toNat / 2 ^ (w * e) % 2 ^ w

/-- The line of the elements given, element 0 first. -/
def ofElems (w : Nat) (xs : List Nat) : Line := BitVec.ofNat 512 (xs.foldr (fun x acc => x % 2 ^ w + 2 ^ w * acc) 0)

/-- Apply a function to each element of a line. -/
def mapElems (w : Nat) (f : Nat → Nat) (l : Line) : Line := ofElems w ((elems w l).map f)

/-- Combine two lines element by element. -/
def zipElems (w : Nat) (f : Nat → Nat → Nat) (a b : Line) : Line := ofElems w (List.zipWith f (elems w a) (elems w b))

/-- The 64 B value whose byte j is 0xFF where bit j of a mask is 1 (R202). -/
def spreadMask (m : BitVec 64) : Line :=
  ofElems 8 ((List.range 64).map fun j => if m.getLsbD j then 0xFF else 0)

/-- The enabled bytes of one line over another's (R202). -/
def mergeLine (m : BitVec 64) (new old : Line) : Line :=
  let s := spreadMask m
  (new &&& s) ||| (old &&& ~~~s)

/-- The mask of 64 bits with bit j set where f j holds. -/
def maskOf (f : Nat → Bool) : BitVec 64 :=
  BitVec.ofNat 64 ((List.range 64).foldr (fun j acc => (if f j then 1 else 0) + 2 * acc) 0)

/-- The byte mask of the elements of width w bits for which f holds (R201, R236). -/
def elemMask (w : Nat) (bs : List Bool) : BitVec 64 := maskOf fun j => bs.getD (8 * j / w) false

/-- The signed reading of w bits. -/
def toSigned (w x : Nat) : Int := if x % 2 ^ w < 2 ^ (w - 1) then (x % 2 ^ w : Nat) else (x % 2 ^ w : Nat) - (2 ^ w : Nat)

/-- The w bits of an integer. -/
def ofInt (w : Nat) (x : Int) : Nat := (x % (2 ^ w : Nat)).toNat

/-- A number as n bits. -/
def bits (n x : Nat) : Nat := x % 2 ^ n

/-- Exclusive or of two lists of lines, poison in either giving poison. -/
def xorLines (a b : List (Line × Bool)) : List (Line × Bool) :=
  List.zipWith (fun x y => (x.1 ^^^ y.1, x.2 || y.2)) a b

/-- The elements of a list that are not equal to x. -/
def without {α : Type} [DecidableEq α] (x : α) (l : List α) : List α := l.filter fun y => y ≠ x

/-- A list with x added, if it is not there. -/
def withElem {α : Type} [DecidableEq α] (x : α) (l : List α) : List α := if x ∈ l then l else l ++ [x]

/-- Insert a number into a rising list without repeats. -/
def insNat (x : Nat) : List Nat → List Nat
  | [] => [x]
  | y :: ys => if x < y then x :: y :: ys else if x = y then y :: ys else y :: insNat x ys

end Sys2Proof.Machine
end

