-- ==== Sys2Proof/Machine/Float.lean ====
section
/-! DEFINITION. Number formats (R218 to R224) and exact arithmetic with one rounding (R207, R213, R227). A finite value is held
exactly as a sign, a magnitude and a power of two. -/

namespace Sys2Proof.Machine

/-- A value read from a format: a NaN (signalling or not), an infinity, or the exact value (-1)^neg * mant * 2^exp. -/
inductive FVal where
  | nan (signalling : Bool)
  | inf (neg : Bool)
  | fin (neg : Bool) (mant : Nat) (exp : Int)
  deriving DecidableEq, Repr

/-- A binary floating-point format (R219): exponent and fraction widths. -/
structure BinFmt where
  eb : Nat
  fb : Nat
  deriving DecidableEq, Repr

def f32 : BinFmt := ⟨8, 23⟩
def bf16 : BinFmt := ⟨8, 7⟩
def f64 : BinFmt := ⟨11, 52⟩

def BinFmt.width (f : BinFmt) : Nat := 1 + f.eb + f.fb
def BinFmt.bias (f : BinFmt) : Nat := 2 ^ (f.eb - 1) - 1
/-- The power of two of the last place of the subnormals. -/
def BinFmt.minExp (f : BinFmt) : Int := 1 - (f.bias : Int) - (f.fb : Int)
def BinFmt.signBit (f : BinFmt) (neg : Bool) : Nat := if neg then 2 ^ (f.eb + f.fb) else 0
def BinFmt.infBits (f : BinFmt) (neg : Bool) : Nat := f.signBit neg + (2 ^ f.eb - 1) * 2 ^ f.fb
/-- The default NaN (R219). -/
def BinFmt.nanBits (f : BinFmt) : Nat := (2 ^ f.eb - 1) * 2 ^ f.fb + 2 ^ (f.fb - 1)

/-- The value of a bit pattern (R219). -/
def BinFmt.unpack (f : BinFmt) (w : Nat) : FVal :=
  let frac := w % 2 ^ f.fb
  let e := w / 2 ^ f.fb % 2 ^ f.eb
  let neg := w / 2 ^ (f.eb + f.fb) % 2 == 1
  if e = 2 ^ f.eb - 1 then if frac = 0 then .inf neg else .nan (frac < 2 ^ (f.fb - 1))
  else if e = 0 then .fin neg frac f.minExp
  else .fin neg (frac + 2 ^ f.fb) (f.minExp + (e : Int) - 1)

/-- The events of two computations together. -/
def Events.or (a b : Events) : Events := ⟨a.inv || b.inv, a.dz || b.dz, a.ovf || b.ovf, a.unf || b.unf⟩
def Events.invalid : Events := ⟨true, false, false, false⟩
def Events.divZero : Events := ⟨false, true, false, false⟩
def Events.overflow : Events := ⟨false, false, true, false⟩
def Events.underflow : Events := ⟨false, false, false, true⟩
def Events.any (a : Events) : Bool := a.inv || a.dz || a.ovf || a.unf
/-- The event bits [61:58] of a record (R236). -/
def Events.toNat (a : Events) : Nat := a.inv.toNat + 2 * a.dz.toNat + 4 * a.ovf.toNat + 8 * a.unf.toNat

/-- Bit length of a number. -/
def bitLen (n : Nat) : Nat := if n = 0 then 0 else Nat.log2 n + 1

/-- A magnitude on the grid of 2^q: the quotient and whether anything is cut off, rounded to nearest even or towards zero. -/
def onGrid (rz : Bool) (m : Nat) (e q : Int) : Nat × Bool :=
  if q ≤ e then (m * 2 ^ (e - q).toNat, false)
  else
    let sh := (q - e).toNat
    let quo := m / 2 ^ sh
    let rem := m % 2 ^ sh
    let up := !rz && (2 * rem > 2 ^ sh || (2 * rem == 2 ^ sh && quo % 2 == 1))
    (if up then quo + 1 else quo, rem != 0)

/-- R207, R227: round an exact nonzero or zero magnitude to a binary format once. Underflow is a result that is tiny after
rounding with the exponent unbounded, and inexact (DEDUCED, log entry 10). -/
def BinFmt.round (f : BinFmt) (rz neg : Bool) (m : Nat) (e : Int) : Nat × Events :=
  if m = 0 then (f.signBit neg, .none)
  else
    let top := e + (bitLen m : Int) - 1
    let q := max (top - (f.fb : Int)) f.minExp
    let (mant, inexact) := onGrid rz m e q
    let enc := (q - f.minExp).toNat * 2 ^ f.fb + mant
    if enc ≥ (2 ^ f.eb - 1) * 2 ^ f.fb then
      (if rz then f.infBits neg - 1 else f.infBits neg, .overflow)
    else
      let free := (onGrid rz m e (top - (f.fb : Int))).1
      let tiny := top < f.minExp + (f.fb : Int) &&
        !(top + 1 == f.minExp + (f.fb : Int) && free == 2 ^ (f.fb + 1))
      (f.signBit neg + enc, if tiny && inexact then .underflow else .none)

/-- R233: round an exact magnitude stochastically; `w` gives the random word from the 16-bit field. -/
def BinFmt.roundStochastic (f : BinFmt) (w : Nat → Nat) (neg : Bool) (m : Nat) (e : Int) : Nat × Events :=
  if m = 0 then (f.signBit neg, .none)
  else
    let top := e + (bitLen m : Int) - 1
    let q := max (top - (f.fb : Int)) f.minExp
    let n := (q - e).toNat
    let quo := if q ≤ e then m * 2 ^ (e - q).toNat else m / 2 ^ n
    let d := if q ≤ e then 0 else m % 2 ^ n
    let d16 := if n ≤ 16 then d * 2 ^ (16 - n) else d / 2 ^ (n - 16) ||| (if d % 2 ^ (n - 16) ≠ 0 then 1 else 0)
    let mant := if d16 + w d16 % 2 ^ 16 ≥ 2 ^ 16 then quo + 1 else quo
    let enc := (q - f.minExp).toNat * 2 ^ f.fb + mant
    if enc ≥ (2 ^ f.eb - 1) * 2 ^ f.fb then (f.infBits neg, .overflow)
    else (f.signBit neg + enc, if enc < 2 ^ f.fb && d ≠ 0 then .underflow else .none)

/-- An exact sum of finite values, and the sign its zero takes: negative only when every addend is negative (R207). -/
def exactSum (xs : List (Bool × Nat × Int)) : Bool × Nat × Int :=
  let lo := xs.foldl (fun acc x => if x.2.1 = 0 then acc else min acc x.2.2) (xs.foldl (fun acc x => max acc x.2.2) (-100000))
  let total : Int := xs.foldl (fun acc x =>
    if x.2.1 = 0 then acc
    else
      let v : Int := (x.2.1 * 2 ^ (x.2.2 - lo).toNat : Nat)
      if x.1 then acc - v else acc + v) 0
  if total = 0 then (xs.all fun x => x.1, 0, lo) else (total < 0, total.natAbs, lo)

/-- The sum of values, before rounding: NaN when one is, or when opposite infinities meet (with invalid, R207). -/
def sumVals (xs : List FVal) : FVal × Events :=
  let isSig := xs.any fun x => match x with | .nan s => s | _ => false
  let isNan := xs.any fun x => match x with | .nan _ => true | _ => false
  let pos := xs.any fun x => x == .inf false
  let neg := xs.any fun x => x == .inf true
  if pos && neg then (.nan false, .invalid)
  else if isNan then (.nan false, if isSig then .invalid else .none)
  else if pos then (.inf false, .none)
  else if neg then (.inf true, .none)
  else
    let r := exactSum (xs.filterMap fun x => match x with | .fin n m e => some (n, m, e) | _ => none)
    (.fin r.1 r.2.1 r.2.2, .none)

/-- A product, before rounding (R207). -/
def mulVals (x y : FVal) : FVal × Events :=
  match x, y with
  | .nan s, .nan s' => (.nan false, if s || s' then .invalid else .none)
  | .nan s, _ => (.nan false, if s then .invalid else .none)
  | _, .nan s => (.nan false, if s then .invalid else .none)
  | .inf a, .inf b => (.inf (a != b), .none)
  | .inf a, .fin b m _ => if m = 0 then (.nan false, .invalid) else (.inf (a != b), .none)
  | .fin a m _, .inf b => if m = 0 then (.nan false, .invalid) else (.inf (a != b), .none)
  | .fin a m e, .fin b n k => (.fin (a != b) (m * n) (e + k), .none)

/-- The opposite value. -/
def FVal.neg : FVal → FVal
  | .nan s => .nan s
  | .inf n => .inf (!n)
  | .fin n m e => .fin (!n) m e

/-- Pack a value with the events so far, rounding once (R207). -/
def BinFmt.pack (f : BinFmt) (rz : Bool) (v : FVal) (ev : Events) : Nat × Events :=
  match v with
  | .nan _ => (f.nanBits, ev)
  | .inf n => (f.infBits n, ev)
  | .fin n m e => let r := f.round rz n m e; (r.1, ev.or r.2)

/-- a + b (R208). -/
def BinFmt.add (f : BinFmt) (a b : Nat) : Nat × Events :=
  let r := sumVals [f.unpack a, f.unpack b]
  f.pack false r.1 r.2

/-- a - b (R208). -/
def BinFmt.sub (f : BinFmt) (a b : Nat) : Nat × Events :=
  let r := sumVals [f.unpack a, (f.unpack b).neg]
  f.pack false r.1 r.2

/-- a * b (R209). -/
def BinFmt.mul (f : BinFmt) (a b : Nat) : Nat × Events :=
  let r := mulVals (f.unpack a) (f.unpack b)
  f.pack false r.1 r.2

/-- d + a * b, or d - a * b, rounded once; an invalid product is invalid whatever the addend (R209). -/
def BinFmt.fma (f : BinFmt) (minus : Bool) (a b d : Nat) : Nat × Events :=
  let p := mulVals (f.unpack a) (f.unpack b)
  let r := sumVals [f.unpack d, if minus then p.1.neg else p.1]
  f.pack false r.1 (p.2.or r.2)

/-- The order of two values that are not NaN. -/
def ltVals (x y : FVal) : Bool :=
  match x, y with
  | .nan _, _ => false
  | _, .nan _ => false
  | .inf a, .inf b => a && !b
  | .inf a, .fin _ _ _ => a
  | .fin _ _ _, .inf b => !b
  | .fin a m e, .fin b n k =>
    let r := exactSum [(a, m, e), (!b, n, k)]
    r.1 && r.2.1 != 0

/-- Equality with -0 = +0; false on a NaN (R208). -/
def eqVals (x y : FVal) : Bool :=
  match x, y with
  | .nan _, _ => false
  | _, .nan _ => false
  | x, y => !ltVals x y && !ltVals y x

def FVal.isNan : FVal → Bool
  | .nan _ => true
  | _ => false

def FVal.signalling : FVal → Bool
  | .nan s => s
  | _ => false

def FVal.isNeg : FVal → Bool
  | .nan _ => false
  | .inf n => n
  | .fin n _ _ => n

/-- VMIN.f and VMAX.f: -0 below +0; one NaN gives the other operand, two give the default NaN (R208). -/
def BinFmt.minmax (f : BinFmt) (isMax : Bool) (a b : Nat) : Nat × Events :=
  let x := f.unpack a
  let y := f.unpack b
  let ev := if x.signalling || y.signalling then Events.invalid else .none
  if x.isNan && y.isNan then (f.nanBits, ev)
  else if x.isNan then (b, ev)
  else if y.isNan then (a, ev)
  else
    let less := ltVals x y || (eqVals x y && x.isNeg && !y.isNeg)
    (if less != isMax then a else b, ev)

/-- The three compares: 0 is equality, 1 less, 2 less or equal (R208). -/
def BinFmt.cmp (f : BinFmt) (kind a b : Nat) : Bool × Events :=
  let x := f.unpack a
  let y := f.unpack b
  if x.isNan || y.isNan then
    (false, if kind ≠ 0 || x.signalling || y.signalling then .invalid else .none)
  else if kind = 0 then (eqVals x y, .none)
  else if kind = 1 then (ltVals x y, .none)
  else (!ltVals y x, .none)

/-- The integer square root, by one bit of the result after another. -/
def isqrtFrom : Nat → Nat → Nat → Nat
  | 0, _, r => r
  | k + 1, n, r =>
    let c := r + 2 ^ k
    isqrtFrom k n (if c * c ≤ n then c else r)

def isqrt (n : Nat) : Nat := isqrtFrom (bitLen n / 2 + 1) n 0

/-- A quotient m / n * 2^(e - k) as a magnitude with a sticky last bit, enough bits for every format. -/
def divMag (m : Nat) (e : Int) (n : Nat) (k : Int) : Nat × Int :=
  let sh := 130 + bitLen n
  let q := m * 2 ^ sh / n
  let r := m * 2 ^ sh % n
  (2 * q + (if r = 0 then 0 else 1), e - k - (sh : Int) - 1)

/-- The square root of m * 2^e as a magnitude with a sticky last bit. -/
def sqrtMag (m : Nat) (e : Int) : Nat × Int :=
  let odd := e % 2 ≠ 0
  let m' := if odd then 2 * m else m
  let e' := if odd then e - 1 else e
  let n := m' * 2 ^ 200
  let r := isqrt n
  (2 * r + (if r * r = n then 0 else 1), e' / 2 - 101)

/-- 1 / √(m * 2^e) as a magnitude with a sticky last bit. -/
def rsqrtMag (m : Nat) (e : Int) : Nat × Int :=
  let odd := e % 2 ≠ 0
  let m' := if odd then 2 * m else m
  let e' := if odd then e - 1 else e
  let n := 2 ^ 300 / m'
  let r := isqrt n
  (2 * r + (if r * r * m' = 2 ^ 300 then 0 else 1), -(e' / 2) - 151)

/-- The natural logarithm of 2 in units of 2^-160, rounded down. -/
def ln2Fixed : Nat := 1013035739299659071135698605846798551586536899366

/-- Sum of the first n terms of the exponential series of z / 2^160 in units of 2^-160, from the k-th term t. -/
def expSeries : Nat → Nat → Nat → Nat → Nat
  | 0, _, _, _ => 0
  | n + 1, k, t, z => t + expSeries n (k + 1) (t * z / 2 ^ 160 / (k + 1)) z

/-- 2^f for f = x / 2^160 in [0, 1), in units of 2^-160 (R213). -/
def exp2Frac (x : Nat) : Nat := expSeries 45 0 (2 ^ 160) (x * ln2Fixed / 2 ^ 160)

/-- The first n binary places of log2 y for y = x / 2^240 in [1, 2), by repeated squaring (R213). -/
def log2Places : Nat → Nat → Nat → Nat
  | 0, _, acc => acc
  | n + 1, x, acc =>
    let s := x * x / 2 ^ 240
    if s ≥ 2 ^ 241 then log2Places n (s / 2) (2 * acc + 1) else log2Places n s (2 * acc)

/-- VRCP.F32 (R213). -/
def rcpF32 (a : Nat) : Nat × Events :=
  match f32.unpack a with
  | .nan s => (f32.nanBits, if s then .invalid else .none)
  | .inf n => (f32.signBit n, .none)
  | .fin n m e =>
    if m = 0 then (f32.infBits n, .divZero)
    else let r := divMag 1 0 m e; f32.round false n r.1 r.2

/-- VDIV.F32 (R213). -/
def divF32 (a b : Nat) : Nat × Events :=
  match f32.unpack a, f32.unpack b with
  | .nan s, .nan s' => (f32.nanBits, if s || s' then .invalid else .none)
  | .nan s, _ => (f32.nanBits, if s then .invalid else .none)
  | _, .nan s => (f32.nanBits, if s then .invalid else .none)
  | .inf _, .inf _ => (f32.nanBits, .invalid)
  | .inf n, .fin n' _ _ => (f32.infBits (n != n'), .none)
  | .fin n _ _, .inf n' => (f32.signBit (n != n'), .none)
  | .fin n m e, .fin n' m' e' =>
    if m' = 0 then if m = 0 then (f32.nanBits, .invalid) else (f32.infBits (n != n'), .divZero)
    else let r := divMag m e m' e'; f32.round false (n != n') r.1 r.2

/-- VSQRT.F32 (R213). -/
def sqrtF32 (a : Nat) : Nat × Events :=
  match f32.unpack a with
  | .nan s => (f32.nanBits, if s then .invalid else .none)
  | .inf n => if n then (f32.nanBits, .invalid) else (f32.infBits false, .none)
  | .fin n m e =>
    if m = 0 then (f32.signBit n, .none)
    else if n then (f32.nanBits, .invalid)
    else let r := sqrtMag m e; f32.round false false r.1 r.2

/-- VRSQ.F32 (R213). -/
def rsqF32 (a : Nat) : Nat × Events :=
  match f32.unpack a with
  | .nan s => (f32.nanBits, if s then .invalid else .none)
  | .inf n => if n then (f32.nanBits, .invalid) else (0, .none)
  | .fin n m e =>
    if m = 0 then (f32.infBits n, .divZero)
    else if n then (f32.nanBits, .invalid)
    else let r := rsqrtMag m e; f32.round false false r.1 r.2

/-- VEXP2.F32 (R213). A power that is no integer is irrational, so its last bit is sticky. -/
def exp2F32 (a : Nat) : Nat × Events :=
  match f32.unpack a with
  | .nan s => (f32.nanBits, if s then .invalid else .none)
  | .inf n => if n then (0, .none) else (f32.infBits false, .none)
  | .fin n m e =>
    if m = 0 then (0x3F800000, .none)
    else if 8 ≤ e + (bitLen m : Int) ∧ !n then (f32.infBits false, .overflow)
    else if 9 ≤ e + (bitLen m : Int) then (0, .underflow)
    else
      let x : Nat := m * 2 ^ (e + 160).toNat
      let whole : Nat := x / 2 ^ 160
      let frac : Nat := x % 2 ^ 160
      if n then
        if frac = 0 then f32.round false false 1 (-(whole : Int))
        else f32.round false false (2 * exp2Frac (2 ^ 160 - frac) + 1) (-(whole : Int) - 1 - 161)
      else if frac = 0 then f32.round false false 1 whole
      else f32.round false false (2 * exp2Frac frac + 1) ((whole : Int) - 161)

/-- VLOG2.F32 (R213). -/
def log2F32 (a : Nat) : Nat × Events :=
  match f32.unpack a with
  | .nan s => (f32.nanBits, if s then .invalid else .none)
  | .inf n => if n then (f32.nanBits, .invalid) else (f32.infBits false, .none)
  | .fin n m e =>
    if m = 0 then (f32.infBits true, .divZero)
    else if n then (f32.nanBits, .invalid)
    else
      let len := bitLen m
      let whole : Int := e + (len : Int) - 1
      if m = 2 ^ (len - 1) then
        if whole = 0 then (0, .none) else f32.round false (whole < 0) whole.natAbs 0
      else
        let v : Int := whole * 2 ^ 90 + (log2Places 90 (m * 2 ^ (241 - len)) 0 : Nat)
        if 0 ≤ v then f32.round false false (2 * v.natAbs + 1) (-91)
        else f32.round false true (2 * v.natAbs - 1) (-91)

/-- R221: the FP32 table of 2^(k/4). -/
def lnsFp32 (k : Nat) : Nat := match k with | 0 => 0x3F800000 | 1 => 0x3F9837F0 | 2 => 0x3FB504F3 | _ => 0x3FD744FD

/-- R221: the fixed-point table Q[k]. -/
def lnsFixed (k : Nat) : Nat := match k with | 0 => 32768 | 1 => 38969 | 2 => 46341 | _ => 55110

/-- The value that conversion reads from an LNS6 element (R220, R221); none for NaR. -/
def lnsVal (x : Nat) : Option FVal :=
  let e := x % 32
  let s := x / 32 % 2 == 1
  if e = 0 then if s then none else some (.fin false 0 0)
  else match f32.unpack (lnsFp32 (e % 4)) with
    | .fin _ m k => some (.fin s m (k + ((e / 4 : Nat) : Int) - 4))
    | v => some v

/-- The value of an E2M1 nibble (R222). -/
def e2m1Val (x : Nat) : FVal :=
  let s := x / 8 % 2 == 1
  let e := x / 2 % 4
  let m := x % 2
  if e = 0 then .fin s m (-1) else .fin s (2 + m) ((e : Int) - 2)

/-- The value of an integer format's element (R224). -/
def intVal (w : Nat) (signed : Bool) (x : Nat) : Int := if signed then toSigned w x else ((x % 2 ^ w : Nat) : Int)

/-- The binary format of a float code (R58). -/
def binFmt (c : Nat) : BinFmt := if c = 1 then bf16 else if c = 2 then f64 else f32

/-- Is an integer code signed (R58). -/
def intSigned (c : Nat) : Bool := c = 5 || c = 6 || c = 7

/-- The exact value of an element of a format (R219 to R224). -/
def fmtVal (c x : Nat) : FVal :=
  if fmtIsFloat c then (binFmt c).unpack x
  else if fmtIsInt c then
    let v := intVal (fmtWidth c) (intSigned c) x
    .fin (v < 0) v.natAbs 0
  else if c = 3 then (lnsVal x).getD (.nan false)
  else if c = 4 then e2m1Val x
  else if x % 256 = 255 then .nan false else .fin false 1 ((x % 256 : Nat) - 127)

/-- Round an exact magnitude to an integer (R227). -/
def roundInt (rz : Bool) (m : Nat) (e : Int) : Nat := (onGrid rz m e 0).1

/-- Conversion to an integer type of width w: saturation raises invalid from a float and nothing from an integer (R227). -/
def toIntFmt (w : Nat) (signed rz fromInt : Bool) (v : FVal) : Nat × Events :=
  let ev := if fromInt then Events.none else .invalid
  let hi : Int := if signed then 2 ^ (w - 1) - 1 else 2 ^ w - 1
  let lo : Int := if signed then -(2 ^ (w - 1)) else 0
  match v with
  | .nan _ => (0, .invalid)
  | .inf n => (ofInt w (if n then lo else hi), ev)
  | .fin n m e =>
    let r : Int := roundInt rz m e
    let x := if n then -r else r
    if x > hi then (ofInt w hi, ev) else if x < lo then (ofInt w lo, ev) else (ofInt w x, .none)

/-- Is the k-th power of m * 2^e at least 2^t. -/
def powAtLeast (m : Nat) (e : Int) (k : Nat) (t : Int) : Bool :=
  let d := t - k * e
  if d ≤ 0 then m ≠ 0 else 2 ^ d.toNat ≤ m ^ k

/-- Conversion to LNS6: e counts the thresholds of 4 log2|x| + 16 that x reaches (R227). -/
def toLns (rz : Bool) (v : FVal) : Nat × Events :=
  match v with
  | .nan _ => (0x20, .invalid)
  | .inf n => (31 + (if n then 32 else 0), .overflow)
  | .fin n m e =>
    if m = 0 then (0, .none)
    else
      let r := ((List.range 32).filter fun (i : Nat) =>
        if rz then powAtLeast m e 4 ((i : Int) + 1 - 16) else powAtLeast m e 8 (2 * ((i : Int) + 1 - 16) - 1)).length
      if r = 0 then (0, .underflow)
      else if r > 31 then (31 + (if n then 32 else 0), .overflow)
      else (r + (if n then 32 else 0), .none)

/-- Conversion to E2M1 (R227). -/
def toE2m1 (rz : Bool) (v : FVal) : Nat × Events :=
  match v with
  | .nan _ => (0, .invalid)
  | .inf n => (7 + (if n then 8 else 0), .overflow)
  | .fin n m e =>
    let s := if n then 8 else 0
    let over6 := ltVals (.fin false 6 0) (.fin false m e)
    if m = 0 then (s, .none)
    else if over6 then (7 + s, .overflow)
    else
      let q := max (e + (bitLen m : Int) - 2) (-1)
      let (mant, inexact) := onGrid rz m e q
      let enc := (q + 1).toNat * 2 + mant
      (enc + s, if enc < 2 && inexact then .underflow else .none)

/-- Conversion to E8M0 (R227). -/
def toE8m0 (v : FVal) : Nat × Events :=
  match v with
  | .nan _ => (0xFF, .invalid)
  | .inf _ => (0xFE, .overflow)
  | .fin _ m e => if m = 0 then (0, .none) else ((min 254 (max 0 (e + (bitLen m : Int) - 1 + 127))).toNat, .none)

/-- R227: convert one element. -/
def convert (fs fd : Nat) (rz : Bool) (x : Nat) : Nat × Events :=
  let v := fmtVal fs x
  if fmtIsFloat fd then
    let ev := if fmtIsFloat fs && v.signalling then Events.invalid else .none
    (binFmt fd).pack rz v ev
  else if fmtIsInt fd then toIntFmt (fmtWidth fd) (intSigned fd) rz (fmtIsInt fs) v
  else if fd = 3 then toLns rz v
  else if fd = 4 then toE2m1 rz v
  else toE8m0 v

end Sys2Proof.Machine
end

