-- ==== Sys2Proof/Machine/Operands.lean ====
section
/-! DEFINITION. Every operand form: registers with rotation, latches, predicates and guards, loop indices, immediates and lane
taps (R36 to R39, R153, R155, R175, R182, R191, R201, R203). -/

namespace Sys2Proof.Machine

/-- The register that index r of cluster c names (R182). -/
def physReg (x : Brick) (c r : Nat) : Nat := if r < 512 then r else 512 + (r - 512 + tget 0 x.seq.rrb c) % 512

/-- The predicate that index i of cluster c names (R182). -/
def physPred (x : Brick) (c i : Nat) : Nat := if i < 8 then i else 8 + (i - 8 + tget 0 x.seq.prb c) % 8

def vregKey (c phys : Nat) : Nat := c * 1024 + phys
def ppredKey (c phys : Nat) : Nat := c * 16 + phys

/-- A vector register of cluster c. -/
def readV (x : Brick) (c r : Nat) : Line := tget 0 x.vec.v (vregKey c (physReg x c r))

/-- A cluster predicate; p0 reads all ones (R201). -/
def readP (x : Brick) (c i : Nat) : BitVec 64 :=
  if i = 0 then BitVec.allOnes 64 else tget 0 x.vec.p (ppredKey c (physPred x c i))

/-- A scalar register. -/
def readS (x : Brick) (i : Nat) : Word := tget 0 x.sc.s i

/-- A scalar predicate; q0 reads 1 (R36). -/
def readQ (x : Brick) (i : Nat) : Bool := i == 0 || tget false x.sc.q i

/-- The 64 bits of a guard (R36, R201). -/
def guardBits (x : Brick) (g : Guard) : BitVec 64 :=
  let m := if g.gk then (if readQ x g.gi then BitVec.allOnes 64 else 0) else readP x g.gc g.gi
  if g.inv then ~~~m else m

/-- A guard reads true when any of its bits is 1 (R201). -/
def guardTrue (x : Brick) (g : Guard) : Bool := guardBits x g != 0

/-- Level l of the loop stack. -/
def loopLevel (x : Brick) (l : Nat) : Loop := tget Loop.zero x.seq.loops l

/-- IDX of level l, 0 when it is not active (R175). -/
def loopIdx (x : Brick) (l : Nat) : Word := if l < x.seq.depth then BitVec.ofNat 64 (loopLevel x l).idx else 0

/-- A 10-bit immediate sign-extended to 64 bits (R37). -/
def immWord (v : Nat) : Word := (BitVec.ofNat 10 v).signExtend 64

/-- A scalar operand (R191); a predicate operand reads 0 or 1. -/
def scalarVal (x : Brick) : Opd → Word
  | .reg i => readS x i
  | .slatch u => tget 0 x.sc.latch u
  | .loop l => loopIdx x l
  | .imm v => immWord v
  | .pred _ i => if readQ x i then 1 else 0
  | _ => 0

/-- The hops from station s to station s' in a direction (R153). -/
def hops (aw : Bool) (s s' : Nat) : Nat := if aw then (s + 20 - s' % 20) % 20 else (s' + 20 - s % 20) % 20

/-- A lane value stands at a station on plan count clk (R153). -/
def LaneVal.at (v : LaneVal) (aw : Bool) (lane station clk : Nat) : Bool :=
  v.aw == aw && v.lane == lane && v.clk ≤ clk && clk ≤ v.clk + 10 && hops aw v.station station == clk - v.clk

/-- The value a tap finds (R153, R155). -/
def tapAt (x : Brick) (aw : Bool) (lane station clk : Nat) : Option Line :=
  x.ring.lanes.findSome? fun v => if v.at aw lane station clk then v.data else none

/-- A tap at this plan cycle. -/
def tap (x : Brick) (aw : Bool) (lane station : Nat) : Option Line := tapAt x aw lane station x.seq.clk

/-- Two drives on one lane would meet: they ride the same place and their ten hops overlap (R154). -/
def LaneVal.clashes (v : LaneVal) (aw : Bool) (lane station clk : Nat) : Bool :=
  v.aw == aw && v.lane == lane && v.clk ≤ clk + 10 && clk ≤ v.clk + 10 &&
  (if v.clk ≤ clk then hops aw v.station station == clk - v.clk else hops aw station v.station == v.clk - clk)

/-- A replicated immediate: the low w bits of the sign-extended value in each element (R203). -/
def immLine (w v : Nat) : Line := ofElems w (List.replicate (512 / w) ((BitVec.ofNat 10 v).signExtend 64).toNat)

/-- A 64 B operand of a slot of cluster c, immediates replicated in elements of w bits; none for an empty tap (R155, R203). -/
def clusterVal (x : Brick) (c w : Nat) : Opd → Option Line
  | .reg i => some (readV x c i)
  | .latch c' u => some (tget 0 x.vec.latch (c' * 3 + u))
  | .tap aw lane => tap x aw lane (2 * c + 1)
  | .loop l => some (ofElems 32 (List.replicate 16 (loopIdx x l).toNat))
  | .imm v => some (immLine w v)
  | _ => some 0

/-- A register operand that reads with an uncorrectable error (R204). -/
def clusterUe (x : Brick) (c : Nat) : Opd → Bool
  | .reg i => x.vec.ue.contains (vregKey c (physReg x c i))
  | .pred false i => x.vec.ue.contains (8192 + ppredKey c (physPred x c i))
  | _ => false

/-- A scalar operand that reads with an uncorrectable error (R168, R204). -/
def scalarUe (x : Brick) : Opd → Bool
  | .reg i => x.sc.ue.contains i
  | _ => false

/-- The cluster predicate that a guard names reads with an uncorrectable error (R36, R204). -/
def guardUe (x : Brick) (g : Guard) : Bool := !g.gk && g.gi != 0 && x.vec.ue.contains (8192 + ppredKey g.gc (physPred x g.gc g.gi))

/-- The active bank's pattern p (R210). -/
def patternOf (x : Brick) (p : Nat) : Line := tget identityPattern x.vec.patterns (x.vec.activeBank * 64 + p)

/-- A shuffle by a pattern's selector bytes (R211). -/
def shuffle (pat a : Line) : Line :=
  ofElems 8 ((elems 8 pat).map fun sel => if sel / 64 % 2 = 1 then 0 else elem 8 a (sel % 64))

/-- A predicate operand of a predicate operation (R206). -/
def predVal (x : Brick) (c : Nat) : Opd → BitVec 64
  | .pred _ i => readP x c i
  | _ => 0

/-- The U bit (R57). -/
def isUns (o : SlotOp) : Bool := o.mod % 2 == 1

/-- The S bit (R57). -/
def isSat (o : SlotOp) : Bool := o.mod / 2 % 2 == 1

/-- The index of a scalar register as an operand, its 16 low bits: MRDT and MSTAG (R161). -/
def tagOperand (x : Brick) (r : Nat) : BitVec 16 := (readS x r).setWidth 16

end Sys2Proof.Machine
end

