-- ==== Sys2Proof/Machine/Flags.lean ====
section
/-! DEFINITION. Every event and predicate computation: what an operation's elements raise (R207), the byte masks of pollen
records and predicates (R201, R206, R236), the scalar compares (R193). -/

namespace Sys2Proof.Machine

/-- What a cluster unit computes: the result, the bytes it writes, the events of each byte (none: no event). -/
structure VRes where
  line : Line
  writes : BitVec 64
  evs : List Events
  deriving DecidableEq, Repr

/-- A result that raises nothing. -/
def VRes.quiet (l : Line) : VRes := ⟨l, BitVec.allOnes 64, []⟩

/-- A result by elements of w bits, each with its events. -/
def VRes.ofElems (w : Nat) (rs : List (Nat × Events)) : VRes :=
  ⟨Machine.ofElems w (rs.map (·.1)), BitVec.allOnes 64,
    (List.range 64).map fun j => (rs.getD (8 * j / w) (0, .none)).2⟩

/-- Element by element over two operands. -/
def VRes.zip (w : Nat) (f : Nat → Nat → Nat × Events) (a b : Line) : VRes :=
  .ofElems w (List.zipWith f (elems w a) (elems w b))

/-- Element by element over one operand. -/
def VRes.map1 (w : Nat) (f : Nat → Nat × Events) (a : Line) : VRes := .ofElems w ((elems w a).map f)

/-- Element by element over two operands and the destination (R209). -/
def VRes.zip3 (w : Nat) (f : Nat → Nat → Nat → Nat × Events) (a b d : Line) : VRes :=
  .ofElems w (((elems w a).zip ((elems w b).zip (elems w d))).map fun p => f p.1 p.2.1 p.2.2)

/-- A predicate: each element's bit in every one of its bytes (R201, R206). -/
def VRes.pred (w : Nat) (rs : List (Bool × Events)) : VRes :=
  ⟨(elemMask w (rs.map (·.1))).setWidth 512, BitVec.allOnes 64,
    (List.range 64).map fun j => (rs.getD (8 * j / w) (false, .none)).2⟩

/-- The events of the enabled bytes together (R207). -/
def enabledEvents (m : BitVec 64) (evs : List Events) : Events :=
  evs.zipIdx.foldl (fun acc p => if m.getLsbD p.2 then acc.or p.1 else acc) .none

/-- The enabled bytes that raised an event (R236). -/
def eventMask (m : BitVec 64) (evs : List Events) : BitVec 64 := maskOf fun j => m.getLsbD j && (evs.getD j .none).any

/-- A pollen record before it is queued; LOSS is set as it enters (R236). -/
def pollenRec (kind slot pc issue : Nat) (ev : Events) (payload : BitVec 64) : BitVec 128 :=
  BitVec.ofNat 128 (kind % 256 + slot % 64 * 2 ^ 8 + pc % 2 ^ 34 * 2 ^ 16 + issue % 256 * 2 ^ 50 + ev.toNat * 2 ^ 58 +
    payload.toNat * 2 ^ 64)

/-- A count that stops at its largest value (R77, R237, R389). -/
def satAdd32 (x n : Nat) : Nat := min (x + n) 0xFFFFFFFF

/-- Records join the queue in increasing slot order; a full queue drops and counts them (R237). -/
def flushPollen (x : Brick) : Brick :=
  let news := x.pollenNew.foldl (fun acc r =>
    (acc.takeWhile fun q => q.1 ≤ r.1) ++ [r] ++ (acc.dropWhile fun q => q.1 ≤ r.1)) []
  let y := news.foldl (fun x r =>
    if x.pollen.length < 256 then
      { x with pollen := x.pollen ++ [if x.pollenLoss then r.2 ||| (1#128 <<< 14) else r.2], pollenLoss := false }
    else
      { x with
        pollenLoss := true
        sys := tput 0 x.sys 0x022 (BitVec.ofNat 64 (satAdd32 (tget 0 x.sys 0x022).toNat 1)) }) x
  { y with pollenNew := [] }

/-- A scalar compare: 0 equal, 1 not equal, 2 less, 3 less or equal (R193). -/
def scalarCmp (kind : Nat) (unsigned : Bool) (a b : Word) : Bool :=
  match kind with
  | 0 => a == b
  | 1 => a != b
  | 2 => if unsigned then a.toNat < b.toNat else a.toInt < b.toInt
  | _ => if unsigned then a.toNat ≤ b.toNat else a.toInt ≤ b.toInt

end Sys2Proof.Machine
end

