-- ==== Sys2Proof/Machine/Ops.lean ====
section
/-! DEFINITION. The named operations over the package's state: bricks and tasks, ring memory and its protection, lanes and
bundle ports, the shared course of an issued operation, the landing of its effects, and taking a fault and resuming from
it (R379 to R391). -/

namespace Sys2Proof.Machine

/-- Brick b; a brick never written is at reset. -/
def State.brick (s : State) (b : Nat) : Brick := tget Brick.reset s.bricks b

def State.setBrick (s : State) (b : Nat) (x : Brick) : State := { s with bricks := tins s.bricks b x }

def State.onBrick (s : State) (b : Nat) (f : Brick → Brick) : State := s.setBrick b (f (s.brick b))

/-- The brick whose cycle is being worked through. -/
def State.cur (s : State) : Brick := s.brick s.issue.brick

def State.setCur (s : State) (x : Brick) : State := s.setBrick s.issue.brick x

def State.onCur (s : State) (f : Brick → Brick) : State := s.onBrick s.issue.brick f

/-- Course time. -/
def State.ct (s : State) : Nat := s.tb.ct

/-- CT[31:0]. -/
def State.ct32 (s : State) : Nat := s.tb.ct % 2 ^ 32

def State.emit (s : State) (o : Out) : State := { s with out := s.out ++ [o] }

/-- Work that is done next, before what stands on the agenda. -/
def State.push (s : State) (ts : List Todo) : State := { s with agenda := ts ++ s.agenda }

/-- A free value of n bits (log entry 7). -/
def State.drawFree (s : State) (n : Nat) : Nat × State := (Config.freeBits s.fresh n, { s with fresh := s.fresh + 1 })

/-- No task. -/
def Task.none : Task :=
  { port := 0, launchId := 0, part := 0, queue := 0, rank := 0, asap := false, timed := false, start := 0, accepted := 0, widths := 0, args := [],
    steptag := 0, run := 0, wbase := 0, mask := [],
    image := { stream := [], data := [], timelines := [], formats := [], patterns := [], tables := [], count := 0, widths := .none },
    state := .ended, firstIssue := 0, saved := [], slots := [], pre := false, tlStopped := false, ending := false, tlStopAt := .none,
    preempt := .none, byRequest := false, parkOnly := false, lastYield := 0, lastRun := 0 }

def State.task (s : State) (t : Nat) : Task := tget Task.none s.tasks t

def State.onTask (s : State) (t : Nat) (f : Task → Task) : State := { s with tasks := tins s.tasks t (f (s.task t)) }

def State.part (s : State) (k : Nat) : Part := tget Part.reset s.parts k

def State.onPart (s : State) (k : Nat) (f : Part → Part) : State := { s with parts := tins s.parts k (f (s.part k)) }

def State.channel (s : State) (ch : Nat) : Channel := tget Channel.reset s.channels ch

def State.onChannel (s : State) (ch : Nat) (f : Channel → Channel) : State :=
  { s with channels := tins s.channels ch (f (s.channel ch)) }

def Channel.bank (c : Channel) (k : Nat) : Bank := tget Bank.reset c.banks k

def Channel.onBank (c : Channel) (k : Nat) (f : Bank → Bank) : Channel := { c with banks := tins c.banks k (f (c.bank k)) }

/-- The partition a brick belongs to (R27). -/
def State.partOfBrick (s : State) (b : Nat) : Option Nat :=
  (s.parts.find? fun p => p.2.bricks.contains b).map (·.1)

/-- A brick's partition, through its task where it has one. -/
def State.partOf (s : State) (b : Nat) : Nat :=
  match (s.brick b).task with
  | some t => (s.task t).part
  | none => (s.partOfBrick b).getD 0

/-- A resident task runs or is parked; a parked one that was chosen is parked until its next first issue (R369). -/
def Task.resident (t : Task) : Bool :=
  t.state == .running || t.state == .parked || (t.state == .placed && !t.saved.isEmpty)

/-- A bound task is timed or holds a timeline section (R371, R382). -/
def Task.bound (t : Task) : Bool := t.timed || !t.image.timelines.isEmpty

/-- The task that a brick runs is bound. -/
def State.boundBrick (s : State) (b : Nat) : Bool :=
  match (s.brick b).task with
  | some t => (s.task t).bound
  | none => false

/-- The image that holds a parked or ended task's copy of brick b. -/
def Task.savedBrick (t : Task) (b : Nat) : Option Brick := (t.saved.find? fun q => q.1 == b).map (·.2)

/-- Where a task's state of a brick is: below 768 the brick itself, above it the image that a task holds (R391, R392, R394). -/
def imageOf (t b : Nat) : Nat := 768 * (t + 1) + b

/-- The state at a home. -/
def State.home (s : State) (n : Nat) : Brick :=
  if n < 768 then s.brick n else ((s.task (n / 768 - 1)).savedBrick (n % 768)).getD Brick.reset

def State.onHome (s : State) (n : Nat) (f : Brick → Brick) : State :=
  if n < 768 then s.onBrick n f
  else s.onTask (n / 768 - 1) fun t => { t with saved := t.saved.map fun q => if q.1 = n % 768 then (q.1, f q.2) else q }

/-- The home of a task's state of brick b, if there is one. -/
def State.homeOf (s : State) (t b : Nat) : Option Nat :=
  if (s.brick b).task = some t then some b
  else if ((s.task t).savedBrick b).isSome then some (imageOf t b)
  else none

/-- The partition of a home. -/
def State.partOfHome (s : State) (n : Nat) : Nat := if n < 768 then s.partOf n else (s.task (n / 768 - 1)).part

/-- The homes of which something holds, bricks first. -/
def State.homesWith (s : State) (p : Brick → Bool) : List Nat :=
  (s.bricks.filter fun q => p q.2).map (·.1) ++
    s.tasks.flatMap fun t => (t.2.saved.filter fun q => p q.2).map fun q => imageOf t.1 q.1

/-- A stored system register of a brick. -/
def sysGet (x : Brick) (n : Nat) : Word := tget 0 x.sys n

def sysSet (x : Brick) (n : Nat) (v : Word) : Brick := { x with sys := tput 0 x.sys n v }

/-- A status register records the first fault while its V bit is 0; further registers follow the first (R380). -/
def recordStatus (x : Brick) (regs : List (Nat × Word)) : Brick :=
  match regs with
  | [] => x
  | (n, v) :: rest =>
    if (sysGet x n).getLsbD 0 then x else rest.foldl (fun x r => sysSet x r.1 r.2) (sysSet x n v)

/-- A fault found at the issue under way (R380). -/
def State.foundAt (s : State) (code slot : Nat) (regs : List (Nat × Word) := []) : State :=
  { s with issue := { s.issue with found := s.issue.found ++ [⟨code, slot, regs⟩] } }

/-- Found where a condition holds. -/
def State.foundIf (s : State) (c : Bool) (code slot : Nat) (regs : List (Nat × Word) := []) : State :=
  if c then s.foundAt code slot regs else s

/-- The Drerel root is the package that RANKTBL entry 0 names (R336, R409). -/
def State.isRoot (s : State) : Bool :=
  let e := tget 0 s.ranktbl 0
  fld e 12 1 == 1 && fld e 0 12 == s.station

/-- A slip notice leaves for the Drerel root; the package receives its own notice back (R354). -/
def State.sendNotice (s : State) (tag rank : Nat) : State :=
  let o := Out.notice tag rank s.ct
  if s.out.contains o then s
  else
    let s1 := s.emit o
    if s.tb.lm = 0 then s1.push [.event (.slipNotice false ⟨tag, rank⟩)]
    else { s1 with inputs := s1.inputs ++ [(s.ct + 2 * s.tb.lm, .slipNotice false ⟨tag, rank⟩)] }

/-- The notice of a course slip, sent on the cycle on which the task takes it, for a task with a step tag (R354). -/
def State.noticeOf (s : State) (t : Nat) (f : Late) : State :=
  if f.notice && (s.task t).steptag ≠ 0 then s.sendNotice (s.task t).steptag s.rank else s

/-- A fault found after issue or in Course time (R354, R378, R381). -/
def State.late (s : State) (b : Nat) (f : Late) : State :=
  let s1 := s.onBrick b fun x => { x with trap := { x.trap with found := x.trap.found ++ [f] } }
  match (s.brick b).task with
  | some t => s1.noticeOf t f
  | none => s1

/-- A late fault of an operation of a slot. -/
def State.lateOf (s : State) (b code slot pc issue : Nat) (regs : List (Nat × Word)) (replay : Bool := false) : State :=
  s.late b
    { code := code, slot := slot, late := true, replay := replay, pc := pc, issue := issue, cycle := s.ct, tcode := 0,
      regs := regs, notice := false }

/-- A fault found after issue of a task that may have parked: it waits in the image, and the notice of a course slip leaves at once (R354,
R388). -/
def State.lateAt (s : State) (n : Nat) (f : Late) : State :=
  if n < 768 then s.late n f
  else (s.onHome n fun x => { x with trap := { x.trap with found := x.trap.found ++ [f] } }).noticeOf (n / 768 - 1) f

/-- A late fault of a unit whose task may have parked (R388). -/
def State.lateHome (s : State) (n code slot pc issue : Nat) (regs : List (Nat × Word)) : State :=
  s.lateAt n
    { code := code, slot := slot, late := true, replay := false, pc := pc, issue := issue, cycle := s.ct, tcode := 0, regs := regs,
      notice := false }

/-- The record of a course slip of a brick (R353); slot 63 but for a settle bundle's (R389). -/
def slipRecord (x : Brick) (now slot : Nat) (regs : List (Nat × Word)) (notice : Bool) : Late :=
  { code := 0x0C, slot := slot, late := true, replay := false, pc := x.seq.pc, issue := x.seq.issueNo, cycle := now,
    tcode := 0, regs := regs, notice := notice }

/-- A course slip of a brick, and of one whose task may have parked (R353, R388). -/
def State.courseSlip (s : State) (b slot : Nat) (regs : List (Nat × Word)) (notice : Bool) : State :=
  s.late b (slipRecord (s.brick b) s.ct slot regs notice)
def State.slipHome (s : State) (n slot : Nat) (regs : List (Nat × Word)) (notice : Bool) : State :=
  s.lateAt n (slipRecord (s.home n) s.ct slot regs notice)

/-- The word of RGFSTAT for an empty tap (R172). -/
def rgfTap (s : State) (aw : Bool) (lane station : Nat) : Word :=
  BitVec.ofNat 64 (1 + 1 * 2 + station * 2 ^ 3 + aw.toNat * 2 ^ 8 + lane * 2 ^ 9 + s.ct32 * 2 ^ 32)

/-- The word of RGFSTAT for a ring read with an error (R172). -/
def rgfRead (s : State) (block line : Nat) : Word :=
  BitVec.ofNat 64 (1 + 2 * 2 + block * 2 ^ 13 + line * 2 ^ 16 + s.ct32 * 2 ^ 32)

/-- Missed operand where a tap found nothing (R155). -/
def State.tapCheck (s : State) (slot station : Nat) : Opd → State
  | .tap aw lane =>
    s.foundIf (tap s.cur aw lane station).isNone 0x04 slot [(0x048, rgfTap s aw lane station)]
  | _ => s

/-- Destinations that R41 counts as registers; a pattern and the bank change are counted by R217. -/
def Dest.isRegister : Dest → Bool
  | .vreg _ _ => true
  | .ppred _ _ => true
  | .sreg _ => true
  | .qpred _ => true
  | .pattern _ _ => true
  | .bankSwap => true
  | _ => false

/-- The register that an operation lands in, and the plan count: a load's is the one after its read (R41). An MTSR to FTWR lands in
the entry of the format table that it names (R230, R318). -/
def Flight.lands (f : Flight) : Option (Dest × Nat) :=
  match f.dest with
  | .readWord _ _ _ r fin => some (.sreg r, fin)
  | .sys n => if n = 0x024 then some (.sys (0x400 + fld f.value.toNat 0 6), f.due) else none
  | d => if d.isRegister then some (d, f.due) else none

/-- Two results would land in one register on one cycle (R41). -/
def Flight.collides (f g : Flight) : Bool := f.lands.isSome && f.lands == g.lands

/-- The slot of an operation that already lands in a register at a plan count: of the issue under way the lower of the two
(R41, R380). -/
def State.collision (s : State) (f : Flight) : Option Nat :=
  let x := s.cur
  let old := (s.issue.saved.map fun y => y.flights.length).getD 0
  match (x.flights.drop old).find? f.collides with
  | some g => some (min g.slot f.slot)
  | none => if x.flights.any f.collides then some f.slot else none

/-- Schedule an effect of the issue under way, checked under R41. -/
def State.addFlight (s : State) (f : Flight) : State :=
  let s1 := s.onCur fun x => { x with flights := x.flights ++ [f] }
  match s.collision f with
  | some slot => s1.foundAt 0x01 slot
  | none => s1

/-- A flight with no latch, no guard mask and no event, lat cycles from now. -/
def State.plainFlight (s : State) (slot lat : Nat) (d : Dest) (v : Line) : Flight :=
  { due := s.cur.seq.clk + lat, slot := slot, pc := s.issue.pc, issue := s.issue.issue, dest := d, latch := false, value := v,
    mask := BitVec.allOnes 64, ev := .none, evMask := 0 }

/-- Another access of a block's bundle port stands at a plan count: of an earlier issue, or of this bundle (R158). -/
def State.portTaken (s : State) (key : Nat × Nat) : Bool := s.cur.ring.ports.contains key || s.issue.ghosts.contains key

/-- Claim a bundle port lat cycles from now; of two slots that clash, the one that claims second is at fault (R158; log entry 164). -/
def State.claimPort (s : State) (slot block lat : Nat) : State :=
  let key := (block, s.cur.seq.clk + lat)
  (s.onCur fun x => { x with ring := { x.ring with ports := x.ring.ports ++ [key] } }).foundIf (s.portTaken key) 0x01 slot

/-- A guard-false operation is checked as the one that issues, and its access leaves nothing behind the bundle (R40, R158). -/
def State.ghostPort (s : State) (slot block lat : Nat) : State :=
  let key := (block, s.cur.seq.clk + lat)
  { s with issue := { s.issue with ghosts := s.issue.ghosts ++ [key] } }.foundIf (s.portTaken key) 0x01 slot

/-- Claim a lane for a drive lat cycles from now; of two slots that clash, the one that claims second is at fault (R154; log entry 164). -/
def State.claimLane (s : State) (slot : Nat) (aw : Bool) (lane station lat : Nat) : State :=
  let x := s.cur
  let at' := x.seq.clk + lat
  let v : LaneVal := { aw := aw, lane := lane, station := station, clk := at', data := none }
  (s.onCur fun x => { x with ring := { x.ring with lanes := x.ring.lanes ++ [v] } }).foundIf
    (x.ring.lanes.any fun u => u.clashes aw lane station at') 0x01 slot

/-- Drive a value at its claim: the claim takes the data (R153). -/
def fillLane (x : Brick) (aw : Bool) (lane station clk : Nat) (d : Line) : Brick :=
  { x with
    ring := { x.ring with
      lanes := x.ring.lanes.map fun v =>
        if v.aw == aw && v.lane == lane && v.station == station && v.clk == clk then { v with data := some d } else v } }

/-- Lane values that have left their lanes and drives whose cycle has passed are gone (R153, R154); so are port claims. -/
def pruneRing (x : Brick) : Brick :=
  { x with
    ring := { x.ring with
      lanes := x.ring.lanes.filter fun v => x.seq.clk ≤ v.clk || (v.data.isSome && x.seq.clk ≤ v.clk + 10)
      ports := x.ring.ports.filter fun p => x.seq.clk ≤ p.2 } }

/-- A correctable error in a brick's SRAM: counted, and the brick freezes for the 8 Course cycles that follow (R168, R172).
Errors found on one cycle count each and cause one freeze. -/
def State.correctable (s : State) (b n : Nat) : State :=
  if n = 0 then s
  else s.onBrick b fun x =>
    let v := (sysGet x 0x049).toNat
    let y := sysSet x 0x049 (BitVec.ofNat 64 (v / 2 ^ 32 * 2 ^ 32 + satAdd32 (v % 2 ^ 32) n))
    { y with
      frz := { y.frz with
        ceFrom := if y.frz.ceUntil ≠ 0 ∧ s.ct ≤ y.frz.ceUntil then y.frz.ceFrom else s.ct + 1
        ceUntil := max y.frz.ceUntil (s.ct + 8) } }

/-- Words of a line or of part of it that stand in a list of marked 64-bit words (R167). -/
def markedWords (marks : List Nat) (addr n : Nat) : List Nat := marks.filter fun w => addr / 8 ≤ w && w * 8 < addr + n

/-- Read bytes of ring memory: correctable words are corrected, rewritten and counted; the answer says whether a word is
uncorrectable or the line poisoned (R166, R167). -/
def State.ringRead (s : State) (b addr n : Nat) : List Byte × Bool × State :=
  let x := s.brick b
  let fixed := markedWords x.ring.ce addr n
  let bad := !(markedWords x.ring.ue addr n).isEmpty || x.ring.poison.contains (addr / 64)
  let s1 := if fixed.isEmpty then s
    else (s.onBrick b fun x => { x with ring := { x.ring with ce := x.ring.ce.filter fun w => !fixed.contains w } }).correctable b
      fixed.length
  (readBytes x.ring.mem addr n, bad, s1)

/-- Write a line of ring memory whole: fresh check bits, and the poison bit of the data (R166). -/
def Ring.writeLine (r : Ring) (line : Nat) (d : Line) (psn : Bool) : Ring :=
  { r with
    mem := Machine.writeLine r.mem (64 * line) d
    poison := if psn then insNat line r.poison else without line r.poison
    ce := r.ce.filter fun w => w / 8 ≠ line
    ue := r.ue.filter fun w => w / 8 ≠ line }

/-- Write some bytes of a ring line under a mask, as a fill or a window does not: the line's other bytes stay. -/
def Ring.storeBytes (r : Ring) (addr : Nat) (bs : List Byte) : Ring :=
  { r with
    mem := writeBytes r.mem addr bs
    ce := r.ce.filter fun w => w ≠ addr / 8
    ue := r.ue.filter fun w => w ≠ addr / 8 }

/-- One element of a list is replaced by what f makes of it. -/
def setNth {α : Type} (l : List α) (k : Nat) (f : α → α) : List α := (l.zipIdx).map fun p => if p.2 = k then f p.1 else p.1

/-- The words with an error mark that are left when n bytes from an address within one line are written: a word goes when all of it is
written (R136, R168; log entry 141). -/
def marksLeft (marks : List Nat) (addr n : Nat) : List Nat :=
  marks.filter fun w => w / 8 ≠ addr / 64 || !(decide (addr ≤ 8 * w) && decide (8 * w + 8 ≤ addr + n))

/-- A granule's sequence tag; 0xFFFF where none was set (R128). -/
def tagOf (x : Brick) (g : Nat) : BitVec 16 := tget 0xFFFF#16 x.ring.tags g

def setTag (x : Brick) (g : Nat) (v : BitVec 16) : Brick := { x with ring := { x.ring with tags := tput 0xFFFF#16 x.ring.tags g v } }

/-- A record enters the pollen queue on this cycle (R237). -/
def State.pollen (s : State) (b slot : Nat) (r : BitVec 128) : State :=
  s.onBrick b fun x => { x with pollenNew := x.pollenNew ++ [(slot, r)] }

/-- The latch of the unit at a cluster slot (R37). -/
def latchKey (slot : Nat) : Nat := clusterOf slot * 3 + unitOf slot

/-- A result lands in a vector register: the enabled bytes of the value, the old bytes elsewhere (R202). -/
def landVreg (x : Brick) (f : Flight) (c r : Nat) : Brick :=
  let key := vregKey c r
  let merged := mergeLine f.mask f.value (tget 0 x.vec.v key)
  { x with
    vec := { x.vec with
      v := tput 0 x.vec.v key merged
      latch := if f.latch then tput 0 x.vec.latch (latchKey f.slot) merged else x.vec.latch
      ue := if f.mask = BitVec.allOnes 64 then without key x.vec.ue else x.vec.ue } }

/-- A predicate result lands whole; its latch takes 0xFF in each byte whose bit is 1 (R202, R385). -/
def landPpred (x : Brick) (f : Flight) (c i : Nat) : Brick :=
  let m := f.value.setWidth 64
  { x with
    vec := { x.vec with
      p := tput 0 x.vec.p (ppredKey c i) m
      latch := if f.latch then tput 0 x.vec.latch (latchKey f.slot) (spreadMask m) else x.vec.latch
      ue := without (8192 + ppredKey c i) x.vec.ue } }

/-- A scalar result lands in its register and its unit's latch (R191). -/
def landSreg (x : Brick) (f : Flight) (r : Nat) : Brick :=
  let v := f.value.setWidth 64
  { x with
    sc := { x.sc with
      s := tput 0 x.sc.s r v
      latch := if f.latch then tput 0 x.sc.latch (f.slot - 1) v else x.sc.latch
      ue := without r x.sc.ue } }

/-- A scalar predicate lands, 0 or 1 in the latch (R191). -/
def landQpred (x : Brick) (f : Flight) (i : Nat) : Brick :=
  let v := f.value.getLsbD 0
  { x with
    sc := { x.sc with
      q := tput false x.sc.q i v
      latch := if f.latch then tput 0 x.sc.latch (f.slot - 1) (if v then 1 else 0) else x.sc.latch } }

/-- A pattern is loaded: the enabled selector bytes, bit 7 of each clear (R211). -/
def landPattern (x : Brick) (f : Flight) (bank p : Nat) : Brick :=
  let key := bank * 64 + p
  let new := mapElems 8 (· % 128) f.value
  { x with
    vec := { x.vec with
      patterns := tput identityPattern x.vec.patterns key (mergeLine f.mask new (tget identityPattern x.vec.patterns key))
      ue := if f.mask = BitVec.allOnes 64 then without (8320 + key) x.vec.ue else x.vec.ue } }

/-- The record of a cluster operation's events (R207, R236). -/
def State.landEvents (s : State) (b : Nat) (f : Flight) : State :=
  if f.ev.any then s.pollen b f.slot (pollenRec 0x01 f.slot f.pc f.issue f.ev f.evMask) else s

/-- A bundle-port read of a whole line performs, and its drive is due at fin (R161, R167, R386). -/
def State.landReadLine (s : State) (b : Nat) (f : Flight) (aw : Bool) (lane station block line fin : Nat) : State :=
  let r := s.ringRead b (262144 * block + 64 * line) 64
  let x := r.2.2.brick b
  if r.2.1 then
    let s1 := r.2.2.lateOf b 0x0B f.slot f.pc f.issue [(0x048, rgfRead s block line)] (x.seq.clk < fin)
    if x.seq.clk < fin then s1.onBrick b fun x => { x with flights := x.flights ++ [{ f with due := x.seq.clk + 1 }] } else s1
  else if fin = x.seq.clk then r.2.2.onBrick b fun x => fillLane x aw lane station fin (bytesLine r.1)
  else if x.seq.clk < fin then
    r.2.2.onBrick b fun x =>
      { x with flights := x.flights ++ [{ f with due := fin, dest := .drive aw lane station, value := bytesLine r.1 }] }
  else r.2.2

/-- The value that LD lands: 2^size bytes, extended (R195). -/
def extendLoad (size : Nat) (zx : Bool) (v : Nat) : Word :=
  if zx then BitVec.ofNat 64 v else BitVec.ofInt 64 (toSigned (8 * 2 ^ size) v)

/-- The bundle-port read of LD (R195, R167, R386). -/
def State.landReadWord (s : State) (b : Nat) (f : Flight) (addr size : Nat) (zx : Bool) (reg fin : Nat) : State :=
  let r := s.ringRead b addr (2 ^ size)
  let x := r.2.2.brick b
  if r.2.1 then
    let s1 := r.2.2.lateOf b 0x0B f.slot f.pc f.issue [(0x048, rgfRead s (addr / 262144) (addr / 64 % 4096))] (x.seq.clk < fin)
    if x.seq.clk < fin then s1.onBrick b fun x => { x with flights := x.flights ++ [{ f with due := x.seq.clk + 1 }] } else s1
  else
    let v := (extendLoad size zx (bytesWord r.1)).setWidth 512
    let f' := { f with due := fin, dest := .sreg reg, value := v }
    if fin = x.seq.clk then r.2.2.onBrick b fun x => landSreg x f' reg
    else if x.seq.clk < fin then r.2.2.onBrick b fun x => { x with flights := x.flights ++ [f'] }
    else r.2.2

/-- The bundle-port read of a narrow ST; its write is due at fin (R158, R167, R386). -/
def State.landReadStore (s : State) (b : Nat) (f : Flight) (addr size fin : Nat) : State :=
  let r := s.ringRead b (addr / 8 * 8) 8
  let x := r.2.2.brick b
  if r.2.1 then
    let s1 := r.2.2.lateOf b 0x0B f.slot f.pc f.issue [(0x048, rgfRead s (addr / 262144) (addr / 64 % 4096))] (x.seq.clk < fin)
    if x.seq.clk < fin then s1.onBrick b fun x => { x with flights := x.flights ++ [{ f with due := x.seq.clk + 1 }] } else s1
  else if x.seq.clk ≤ fin then
    r.2.2.onBrick b fun x => { x with flights := x.flights ++ [{ f with due := fin, dest := .ringStore addr size }] }
  else r.2.2

/-- A line write in one line of each block of a mask (R161). -/
def landRingLine (x : Brick) (f : Flight) (blocks line : Nat) : Brick :=
  { x with
    ring := (List.range 8).foldl (fun r j =>
      if blocks / 2 ^ j % 2 = 1 then r.writeLine (4096 * j + line) f.value false else r) x.ring }

/-- A scalar store: one word takes fresh check bits, the poison bit stays (R166, R195). -/
def landRingStore (x : Brick) (f : Flight) (addr size : Nat) : Brick :=
  { x with ring := x.ring.storeBytes addr (wordBytes (2 ^ size) f.value.toNat) }

/-- When in a Course cycle an effect performs: 0 as the cycle begins, before anything issues; 1 a bundle-port read; 2 late,
after every read of the cycle (R39, R165). -/
def Dest.phase : Dest → Nat
  | .readLine _ _ _ _ _ _ => 1
  | .readWord _ _ _ _ _ => 1
  | .readStore _ _ _ => 1
  | .ringLine _ _ => 2
  | .ringStore _ _ => 2
  | .tag _ => 2
  | .accSeg _ _ _ _ => 2
  | .accZero _ => 2
  | _ => 0

/-- A flight of a phase whose cycle has come; late effects perform once their plan cycle has been worked through. -/
def Flight.isDue (x : Brick) (ph : Nat) (f : Flight) : Bool :=
  f.dest.phase == ph && (if ph = 2 then f.due < x.seq.clk else f.due ≤ x.seq.clk)

/-- How many flights of a phase are due. -/
def dueCount (x : Brick) (ph : Nat) : Nat := (x.flights.filter (Flight.isDue x ph)).length

/-- The order in which due effects of a phase perform: by slot, but the tags that a CPYV resets before those that MSTAG sets, which
prevail (R161). -/
def Flight.turn (f : Flight) : Nat :=
  match f.dest with
  | .tag _ => if f.slot = 39 then 0 else f.slot + 1
  | _ => f.slot + 1

/-- The due flight of a phase whose turn is first, the oldest of them. -/
def nextDue (x : Brick) (ph : Nat) : Option Flight :=
  (x.flights.filter (Flight.isDue x ph)).foldl (fun acc f =>
    match acc with
    | none => some f
    | some g => if f.turn < g.turn then some f else acc) none

/-- The copy of the guarded addition of a tapped value into a row segment (R242, R243). -/
def accKey (tile row col : Nat) : Nat := tile * 4096 + row * 64 + col

/-- Order in which coinciding faults are delivered (R380); codes that it leaves out come last (DEDUCED, log entry 12). -/
def faultRank (code : Nat) : Nat :=
  match code with
  | 0x01 => 1 | 0x07 => 2 | 0x0E => 3 | 0x03 => 4 | 0x04 => 5 | 0x02 => 6 | 0x08 => 7 | 0x0A => 8 | 0x09 => 9 | 0x0B => 10
  | 0x0D => 11 | 0x11 => 12 | _ => 13

/-- a is delivered before b (R380). -/
def firstOf (a b : Nat × Nat) : Bool :=
  faultRank a.1 < faultRank b.1 || (faultRank a.1 == faultRank b.1 && a.2 < b.2)

/-- A forced pre-emption, of a bound task too (R374, R375). -/
def Late.forced (f : Late) : Bool := f.code == 0x10 || f.preempts

/-- A fault found is delivered before another (R380); a pre-emption held pending is delivered first (R395). -/
def Late.before (f g : Late) : Bool :=
  (f.forced && !g.forced) || ((f.forced || !g.forced) && firstOf (f.code, f.slot) (g.code, g.slot))

/-- The fault that is delivered, and the others (R381). -/
def pickLate : List Late → Option (Late × List Late)
  | [] => none
  | f :: fs =>
    match pickLate fs with
    | none => some (f, [])
    | some (g, rest) => if g.before f then some (g, f :: rest) else some (f, g :: rest)

/-- The fault of an issue that is delivered (R380). -/
def pickFound : List Found → Option Found
  | [] => none
  | f :: fs =>
    match pickFound fs with
    | none => some f
    | some g => if firstOf (g.code, g.slot) (f.code, f.slot) then some g else some f

/-- Faults kept pending, up to 8; the rest are dropped and counted in FLTLOST (R381). -/
def addPending (x : Brick) (fs : List Late) : Brick :=
  let all := x.trap.pend ++ fs
  let y := { x with trap := { x.trap with pend := all.take 8 } }
  if all.length ≤ 8 then y
  else sysSet y 0x032 (BitVec.ofNat 64 (satAdd32 (sysGet y 0x032).toNat (all.length - 8)))

/-- KIND, TARGET, CLUSTER and MASK of the descriptor of a flight, and its last plan count; none where the operation produces
no descriptor (R384, R386; log entry 13). -/
def describe (f : Flight) : Option (Nat × Nat × Nat × Nat × Nat) :=
  let replay (fin : Nat) := f.due + 2 > fin
  match f.dest with
  | .vreg c r => some (1, r, c, 0, f.due)
  | .ppred _ i => if f.slot = 0 then none else some (2, 2 ^ 15 + i, 0, 0, f.due)
  | .sreg r => some (2, r, 0, 0, f.due)
  | .qpred i => some (2, 2 ^ 15 + i, 0, 0, f.due)
  | .drive aw lane st => some (3, lane + 16 * aw.toNat + 32 * st, 0, 0, f.due)
  | .readLine aw lane st block line fin =>
    if replay fin then some (6, line, block, 0, fin) else some (3, lane + 16 * aw.toNat + 32 * st, 0, 0, fin)
  | .readWord addr _ _ r fin => if replay fin then some (6, 0, addr / 262144, 0, fin) else some (2, r, 0, 0, fin)
  | .readStore addr _ fin =>
    if replay fin then some (6, 0, addr / 262144, 0, fin)
    else some (4, addr / 64 % 4096 + addr / 8 % 8 * 2 ^ 12, 0, 2 ^ (addr / 262144), fin)
  | .ringLine blocks line => some (4, line, 0, blocks, f.due)
  | .ringStore addr _ => some (4, addr / 64 % 4096 + addr / 8 % 8 * 2 ^ 12, 0, 2 ^ (addr / 262144), f.due)
  | .accSeg _ tile row seg => some (5, row + seg * 2 ^ 6 + tile * 2 ^ 8, 0, 0, f.due)
  | _ => none

/-- The snapshot descriptors at trap point c (R384). -/
def descriptors (fs : List Flight) (c : Nat) : List Word :=
  let ds := fs.filterMap fun f => (describe f).map fun d => (f, d)
  (ds.zipIdx.map fun p =>
    let f := p.1.1
    let d := p.1.2
    BitVec.ofNat 64 (1 + d.1 * 2 + f.slot * 2 ^ 4 + (d.2.2.2.2 - c) % 16 * 2 ^ 10 + d.2.1 % 2 ^ 16 * 2 ^ 16 +
      d.2.2.1 % 8 * 2 ^ 32 + f.latch.toNat * 2 ^ 35 + p.2 % 256 * 2 ^ 36 + d.2.2.2.1 % 256 * 2 ^ 44)).take 256

/-- FLTREC[63:0] (R389). -/
def fltrecLo (f : Late) : Word :=
  BitVec.ofNat 64 (f.code % 256 + f.slot % 64 * 2 ^ 8 + f.late.toNat * 2 ^ 14 + f.replay.toNat * 2 ^ 15 +
    f.pc % 2 ^ 34 * 2 ^ 16 + f.issue % 256 * 2 ^ 50)

/-- FLTREC[127:64] (R389). -/
def fltrecHi (f : Late) (nsnap pend : Nat) : Word :=
  BitVec.ofNat 64 (f.cycle % 2 ^ 32 + f.tcode % 2 ^ 16 * 2 ^ 32 + nsnap % 512 * 2 ^ 48 + pend % 16 * 2 ^ 57)

/-- A brick freezes with its task from a Course cycle on (R382). -/
def joinFreeze (ct : Nat) (x : Brick) : Brick :=
  if x.frz.withTask then x else { x with frz := { x.frz with withTask := true, since := ct } }

/-- The other bricks of a task freeze with the one that trapped, unless the task is bound (R382). -/
def State.freezeTask (s : State) (b : Nat) : State :=
  match (s.brick b).task with
  | none => s
  | some t =>
    if (s.task t).bound then s
    else (s.task t).mask.foldl (fun s c =>
      if c = b || (s.brick c).task ≠ some t then s
      else s.onBrick c (joinFreeze s.ct)) s

/-- A pre-emption whose boundary for this brick is its trap point is held as a pending fault: the next bundle has not made its first
issue (R374, R395). -/
def State.heldPreemption (s : State) (b : Nat) (found : List Late) : List Late :=
  let x := s.brick b
  match x.task with
  | none => []
  | some t =>
    let k := s.task t
    if (k.preempt.any (· ≤ s.ct)) && x.seq.issueNo = 0 && !x.seq.ended && !((found ++ x.trap.pend).any fun f => f.code == 0x10 || f.code == 0x0C) then
      [{ code := if k.bound then 0x0C else 0x10, slot := 63, late := true, replay := false, pc := x.seq.pc, issue := x.seq.issueNo,
         cycle := s.ct, tcode := 0, regs := [], notice := k.bound, preempts := true }]
    else []

/-- TAKING A FAULT. A brick stops at its trap point, the start of its plan cycle seq.clk: the first of the faults found is
delivered and the rest are pending (R379, R381); the snapshot and FLTREC are written, the unit's status register records the
fault, the withheld cycles of a DRIFT and an error freeze of the same cycle end (R383, R395), the Mason is told (R389) and the task
freezes (R382), but for a forced pre-emption, where each brick stops at its own boundary (R374). A brick already trapped keeps every
fault pending. -/
def State.takeTrap (s : State) (b : Nat) : State :=
  let x := s.brick b
  match pickLate x.trap.found with
  | none => s
  | some (f, rest) =>
    let y := { x with trap := { x.trap with found := [] } }
    if x.trap.trapped then s.setBrick b (addPending y x.trap.found)
    else
      let z := recordStatus (addPending y (rest ++ s.heldPreemption b x.trap.found)) f.regs
      let snap := descriptors z.flights z.seq.clk
      let z := { z with
        trap := { z.trap with
          trapped := true
          code := f.code
          snap := snap
          recLo := fltrecLo f
          recHi := fltrecHi f snap.length z.trap.pend.length
          asked := false
          resumeAt := none }
        frz := { z.frz with driftUntil := 0, ceUntil := 0 }
        hod := { z.hod with joinWait := if f.code = 0x11 || f.code = 0x09 then 0 else z.hod.joinWait } }
      let s0 := (s.setBrick b z).emit (.faultEvent b f.code)
      if f.code = 0x10 then s0 else s0.freezeTask b

/-- RETURN FROM A FAULT. The trapped brick resumes at its trap point; pending faults go first, and then the resume is a trap
again at the same point; one found since the trap is pending with the others (R381, R391). -/
def State.resumeTrap (s : State) (b : Nat) : State :=
  let x := s.brick b
  let y := addPending x x.trap.found
  let s1 := s.setBrick b
    { y with
      trap := { y.trap with trapped := false, code := 0, snap := [], asked := false, resumeAt := none, rescyc := s.ct32,
                            found := y.trap.pend, pend := [] }
      frz := { y.frz with withTask := false }
      seq := { y.seq with arrived := none } }
  s1.takeTrap b

/-- A brick is frozen on this Course cycle (R168, R186, R372, R382). An AWAIT, FENCEV or HJOIN freezes it at its issue. -/
def State.frozen (s : State) (b : Nat) : Bool :=
  let x := s.brick b
  x.trap.trapped || x.frz.withTask || s.ct ≤ x.frz.ceUntil && x.frz.ceUntil ≠ 0 || s.ct ≤ x.frz.driftUntil && x.frz.driftUntil ≠ 0 ||
    x.frz.yielded.isSome

/-- The shared course of a scalar operation: under a true guard, errors of the operands it reads and one result in register
or predicate d after lat cycles (R39 to R41, R191). -/
def scalarOp (o : SlotOp) (opds : List Opd) (lat : Nat) (d : Dest) (f : Brick → Word) (s : State) : State :=
  let x := s.cur
  if guardTrue x o.g then
    (s.foundIf (opds.any (scalarUe x)) 0x0B o.pos).addFlight
      { s.plainFlight o.pos lat d ((f x).setWidth 512) with latch := true }
  else s

/-- A scalar operation over a and b into a register (R192). -/
def scalarAlu (o : SlotOp) (lat : Nat) (f : Word → Word → Word) (s : State) : State :=
  scalarOp o [o.a, o.b] lat (.sreg o.dst.index) (fun x => f (scalarVal x o.a) (scalarVal x o.b)) s

/-- A scalar operation over a alone into a register (R192). -/
def scalarUnary (o : SlotOp) (f : Word → Word) (s : State) : State :=
  scalarOp o [o.a] 1 (.sreg o.dst.index) (fun x => f (scalarVal x o.a)) s

/-- A scalar operation over a and b into a predicate (R193). -/
def scalarTest (o : SlotOp) (f : Word → Word → Bool) (s : State) : State :=
  scalarOp o [o.a, o.b] 1 (.qpred o.dst.index) (fun x => if f (scalarVal x o.a) (scalarVal x o.b) then 1 else 0) s

/-- The checks of a cluster operation's operands: empty taps and uncorrectable registers (R155, R204). -/
def State.clusterChecks (s : State) (o : SlotOp) (opds : List Opd) : State :=
  let c := clusterOf o.pos
  let x := s.cur
  let s1 := opds.foldl (fun s d => s.tapCheck o.pos (2 * c + 1) d) s
  s1.foundIf (opds.any (clusterUe x c)) 0x0B o.pos

/-- The shared course of a cluster operation into a register of its cluster: operands by elements of w bits, the result of
f over a, b and the destination after lat cycles in the enabled bytes (R39 to R41, R200 to R203). -/
def vecOp (o : SlotOp) (opds : List Opd) (lat w : Nat) (f : Line → Line → Line → VRes) (s : State) : State :=
  let x := s.cur
  let c := clusterOf o.pos
  let m := guardBits x o.g
  if m = 0 then s
  else
    let r := f ((clusterVal x c w o.a).getD 0) ((clusterVal x c w o.b).getD 0) (readV x c o.dst.index)
    let k := m &&& r.writes
    (s.clusterChecks o opds).addFlight
      { s.plainFlight o.pos lat (.vreg c (physReg x c o.dst.index)) r.line with
        latch := true, mask := k, ev := enabledEvents k r.evs, evMask := eventMask k r.evs }

/-- The shared course of a cluster operation into a predicate of its cluster (R201, R206). -/
def vecPred (o : SlotOp) (opds : List Opd) (lat w : Nat) (f : Line → Line → VRes) (s : State) : State :=
  let x := s.cur
  let c := clusterOf o.pos
  let m := guardBits x o.g
  if m = 0 then s
  else
    let r := f ((clusterVal x c w o.a).getD 0) ((clusterVal x c w o.b).getD 0)
    (s.clusterChecks o opds).addFlight
      { s.plainFlight o.pos lat (.ppred c (physPred x c o.dst.index)) r.line with
        latch := true, ev := enabledEvents m r.evs, evMask := eventMask m r.evs }

end Sys2Proof.Machine
end

