-- ==== Sys2Proof/Machine/Hbm.lean ====
section
/-! DEFINITION. HBM: the address map, blocks with their check bits, stripes and their Bond states, torn marks, the
fault-address queue, translation through range entries (R74 to R77, R96 to R98, R104 to R108, R115, R118, R136). -/

namespace Sys2Proof.Machine

/-- The line that an uncorrectable read delivers (R77, R136). -/
def poisonLine : Line := ofElems 32 (List.replicate 16 0xFFC00BAD)

/-- Bytes of the Bonded data space (R76). -/
def hbmSize : Nat := 1839904849920

/-- A block's place (R76): stack, channel number, bank, logical row, col. -/
structure Place where
  stack : Nat
  ch : Nat
  bank : Nat
  row : Nat
  col : Nat
  deriving DecidableEq, Repr

/-- The parity stack of a stripe (R76). -/
def parityStack (row ch : Nat) : Nat := (row + ch) % 24

/-- The place of the block that holds HBM address A (R76). -/
def placeOf (a : Nat) : Place :=
  let n := a / 512
  let d := n % 23
  let s := n / 23
  let ch := s % 32
  let row := s / 10240
  let p := parityStack row ch
  ⟨if d < p then d else d + 1, ch, s / 128 % 80, row, s / 32 % 4⟩

/-- The package channel of a place (R74). -/
def Place.channel (p : Place) : Nat := 32 * p.stack + p.ch

/-- The physical row of a logical row: its own number until a move (R92, R93). -/
def physRow (c : Channel) (bank row : Nat) : Nat := tget row (c.bank bank).rows row

/-- Where a block's 512 bytes lie in State.hbm. -/
def State.blockAddr (s : State) (p : Place) : Nat :=
  ((((p.channel * 80 + p.bank) * 16384) + physRow (s.channel p.channel) p.bank p.row) * 4 + p.col) * 512

/-- An entry of the fault-address queue; a full queue drops and counts it, up to 2^32 - 1 (R96; log entry 153). -/
def State.faqPush (s : State) (cause : Nat) (p : Place) : State :=
  if s.faq.length < 256 then
    { s with
      faq := s.faq ++ [BitVec.ofNat 128 (1 + cause * 2 + p.stack * 2 ^ 4 + p.ch * 2 ^ 9 + p.bank * 2 ^ 14 + p.row * 2 ^ 21 +
        p.col * 2 ^ 35 + s.ct % 2 ^ 64 * 2 ^ 64)] }
  else { s with faqLost := satAdd32 s.faqLost 1 }

/-- The bank of a stack is in the lost set (R104). -/
def State.isLost (s : State) (stack ch bank : Nat) : Bool := ((s.channel (32 * stack + ch)).bank bank).cracked

/-- Stripe states (R104). -/
inductive Stripe where
  | bonded
  | parityLost
  | dataLost
  | relaid
  deriving DecidableEq, Repr

/-- Some bank of the package is lost. -/
def State.anyLost (s : State) : Bool := s.channels.any fun c => c.2.banks.any fun b => b.2.cracked

def State.stripe (s : State) (ch bank row : Nat) : Stripe :=
  let b := (s.channel (32 * s.bond.lstack + ch)).bank bank
  if !b.cracked then .bonded
  else if b.relaid then .relaid
  else if parityStack row ch = s.bond.lstack then .parityLost
  else .dataLost

/-- The block is delivered as poison by every read: its stripe has lost positions in two stacks (R113). -/
def State.doubleLost (s : State) (p : Place) : Bool :=
  s.isLost p.stack p.ch p.bank &&
    (s.bond.lstack :: s.bond.second).any fun k => k != p.stack && s.isLost k p.ch p.bank

/-- The eight lines of a block as stored: an uncorrectable line reads as poison (R77). -/
def State.readBlock (s : State) (p : Place) : List (Line × Bool) :=
  let base := s.blockAddr p
  (List.range 8).map fun i =>
    if s.doubleLost p || s.hbmUe.contains (base / 64 + i) then (poisonLine, true) else (readLine s.hbm (base + 64 * i), false)

/-- Errors that the check bits correct on a read are counted in the stack's CECNT, which stops at 2^32 - 1 (R77; log entry 153). -/
def State.countCorrected (s : State) (p : Place) : State :=
  let base := s.blockAddr p / 64
  let n := (s.hbmCe.filter fun l => base ≤ l && l < base + 8).length
  if n = 0 then s else { s with cecnt := tput 0 s.cecnt p.stack (satAdd32 (tget 0 s.cecnt p.stack) n) }

/-- A block read by a command: corrected errors counted, an uncorrectable one queued (R77, R96). -/
def State.fetchBlock (s : State) (p : Place) : List (Line × Bool) × State :=
  let ls := s.readBlock p
  let s1 := s.countCorrected p
  (ls, if ls.any (·.2) then s1.faqPush 1 p else s1)

/-- Write a block with fresh check bits; a poisoned line is stored so that it reads as uncorrectable (R77, R99). -/
def State.writeBlock (s : State) (p : Place) (ls : List (Line × Bool)) : State :=
  let base := s.blockAddr p
  (ls.zipIdx).foldl (fun s q =>
    let l := base / 64 + q.2
    { s with
      hbm := writeLine s.hbm (base + 64 * q.2) q.1.1
      hbmUe := if q.1.2 then insNat l s.hbmUe else without l s.hbmUe
      hbmCe := without l s.hbmCe }) s

/-- The stack of a stripe's data position d (R76). -/
def dataStack (row ch d : Nat) : Nat := if d < parityStack row ch then d else d + 1

/-- The XOR of blocks; poison in one line poisons it (R102, R109). -/
def xorBlocks (bs : List (List (Line × Bool))) : List (Line × Bool) :=
  bs.foldl xorLines (List.replicate 8 (0, false))

/-- A stripe is torn: its mark, held on its parity stack's channel, or that channel's overflow mark, where the state of the stripe
gives a mark a meaning (R106, R107). -/
def State.isTorn (s : State) (ch bank row col : Nat) : Bool :=
  let c := s.channel (32 * parityStack row ch + ch)
  let st := s.stripe ch bank row
  (st == .bonded || st == .dataLost) && (c.tornOvf || c.torn.contains (bank, row, col))

/-- Clear a torn mark (R106). -/
def State.untear (s : State) (ch bank row col : Nat) : State :=
  s.onChannel (32 * parityStack row ch + ch) fun c => { c with torn := without (bank, row, col) c.torn }

/-- A stripe receives a torn mark, or its channel's overflow mark, and TORNPOP reports it, an overflow once for each
delta (R106, R107, R115; log entry 155). -/
def State.tear (s : State) (ch bank row col : Nat) : State :=
  let k := 32 * parityStack row ch + ch
  let c := s.channel k
  if s.stripe ch bank row = .parityLost || c.torn.contains (bank, row, col) then s
  else
    let full := decide (16 ≤ c.torn.length)
    let s1 := s.onChannel k fun c =>
      if full then { c with tornOvf := true } else { c with torn := c.torn ++ [(bank, row, col)] }
    { s1 with
      bond := { s1.bond with
        reports := s1.bond.reports ++ [BitVec.ofNat 128 (1 + ch * 2 + bank * 2 ^ 6 + row * 2 ^ 13 + col * 2 ^ 27 +
          full.toNat * 2 ^ 29 + s.ct % 2 ^ 64 * 2 ^ 64)] } }

/-- A full-stripe write of 23 data blocks in the order of their positions, in every stripe state (R102, R108, R111). -/
def State.writeStripe (s : State) (ch bank row col : Nat) (data : List (List (Line × Bool))) : State :=
  let p := parityStack row ch
  let st := s.stripe ch bank row
  let s1 := (data.zipIdx).foldl (fun s q =>
    let k := dataStack row ch q.2
    if st ≠ .bonded && k = s.bond.lstack then
      if st = .relaid then s.writeBlock ⟨p, ch, bank, row, col⟩ q.1 else s
    else s.writeBlock ⟨k, ch, bank, row, col⟩ q.1) s
  let s2 := match st with
    | .bonded | .dataLost => s1.writeBlock ⟨p, ch, bank, row, col⟩ (xorBlocks data)
    | _ => s1
  if st = .relaid then s2 else s2.untear ch bank row col

/-- Reconstruct the lost block of a stripe from the surviving stacks: before the rebuild mark the parity position holds it,
a torn stripe gives poison (R109, R110). -/
def State.reconstruct (s : State) (ch bank row col : Nat) (below : Bool) : List (Line × Bool) :=
  let p := parityStack row ch
  if s.isTorn ch bank row col then List.replicate 8 (poisonLine, true)
  else if below then s.readBlock ⟨p, ch, bank, row, col⟩
  else
    let ls := xorBlocks (((List.range 24).filter (· ≠ s.bond.lstack)).map fun k => s.readBlock ⟨k, ch, bank, row, col⟩)
    ls.map fun l => if l.2 then (poisonLine, true) else l

/-- The stripe lies before the rebuild mark of its channel number (R110). -/
def State.belowMark (s : State) (ch bank row col : Nat) : Bool :=
  let m := tget 0 s.bond.rbmark ch
  m / 2 ^ 23 % 2 = 1 && m % 128 = bank && row * 4 + col < (m / 2 ^ 7 % 2 ^ 14) * 4 + m / 2 ^ 21 % 4

/-- One data block of a stripe, read in every stripe state (R109, R111, R113). -/
def State.readDataBlock (s : State) (ch bank row col d : Nat) : List (Line × Bool) :=
  let k := dataStack row ch d
  let st := s.stripe ch bank row
  if st ≠ .bonded && k = s.bond.lstack then
    if st = .relaid then s.readBlock ⟨parityStack row ch, ch, bank, row, col⟩
    else s.reconstruct ch bank row col (s.belowMark ch bank row col)
  else s.readBlock ⟨k, ch, bank, row, col⟩

/-- BONDMODE (R104, R115). -/
def State.bondMode (s : State) : Word :=
  let banks := s.channels.flatMap fun c => c.2.banks.map (·.2)
  let mode : Nat := if !(banks.any (·.cracked)) then 0 else if banks.any fun b => b.cracked && !b.relaid then 1 else 2
  let torn := (s.channels.map fun c => c.2.torn.length + c.2.tornOvf.toNat).sum
  BitVec.ofNat 64 (mode + (if mode = 0 then 0 else s.bond.lstack) * 4 + s.bond.double.toNat * 2 ^ 7 + s.bond.rebuild.toNat * 2 ^ 8 +
    torn % 2 ^ 16 * 2 ^ 16 + s.bond.losscyc % 2 ^ 32 * 2 ^ 32)

/-- What a translation gives: the cause of its fault or 0, the entry, its TARGET and PAGED, the target address (R118). -/
structure Xlate where
  cause : Nat
  entry : Nat
  kind : Nat
  paged : Bool
  addr : Nat
  deriving DecidableEq, Repr

/-- The fields of a range entry (R119). -/
def Range.valid (r : Range) : Bool := r.attr.getLsbD 0
def Range.target (r : Range) : Nat := fld r.attr.toNat 1 3
def Range.canRead (r : Range) : Bool := r.attr.getLsbD 4
def Range.canWrite (r : Range) : Bool := r.attr.getLsbD 5
def Range.compressed (r : Range) : Bool := r.attr.getLsbD 6
def Range.paged (r : Range) : Bool := r.attr.getLsbD 7

/-- Targets 0 and 1 are timed (R120). -/
def timedTarget (t : Nat) : Bool := t ≤ 1

/-- Bytes of the second tier (R116). -/
def tier2Size : Nat := 8192 * 10 ^ 9

/-- Bytes of a target, where it has a size (R118). -/
def targetSize (kind : Nat) (paged : Bool) : Option Nat :=
  match kind with
  | 0 => some hbmSize
  | 1 => some (2 ^ 31)
  | 2 => if paged then none else some tier2Size
  | _ => none

/-- The lowest-numbered entry that covers an address (R118). -/
def coveringEntry (p : Part) (pa : Nat) : Option Nat :=
  (List.range 64).find? fun i =>
    let r := tget Range.reset p.ranges i
    r.valid && r.base.toNat ≤ pa && pa ≤ r.limit.toNat

/-- The translation of an extent (R118): `admits` says which targets the command may name (R120), `bad7` the cause that its
kind adds for a target and its address. -/
def translate (p : Part) (pa len : Nat) (rd wr : Bool) (admits : Nat → Bool) (bad7 : Nat → Nat → Bool) : Xlate :=
  match coveringEntry p pa with
  | none => ⟨1, 0, 0, false, 0⟩
  | some i =>
    let r := tget Range.reset p.ranges i
    let a := (pa + r.offset.toNat) % 2 ^ 64
    let k := r.target
    let cause :=
      if (rd && !r.canRead) || (wr && !r.canWrite) then 2
      else if wr && r.compressed then 3
      else if !admits k then 4
      else if pa + len - 1 > r.limit.toNat then 5
      else if (match targetSize k r.paged with | some n => decide (a + len > n) | none => false) then 6
      else if bad7 k a then 7
      else 0
    ⟨cause, i, k, r.paged, a⟩

/-- One step of the table walk: the entry at the 64 KiB-aligned position of level 0 is read and checked first, and then, unless
it is CONTIG, the page's own; each entry read is checked in order (R122 to R124). The answer: the code or 0, TGT, the address. A
table beyond the second tier's end has no answer but code 4, and the poison of a line that holds an entry is not looked at (R116;
log entries 131, 132). -/
def pageWalk (tier2 : List Host.Cell) (vva : Nat) (wr : Bool) : Nat → Nat → Nat × Nat × Nat
  | 0, _ => (9, 0, 0)
  | level + 1, table =>
    let shift := 12 + 9 * level
    let idx := fld vva shift 9
    let entry (i : Nat) : Nat := readNat tier2 (table + 8 * i) 8
    let check (e size : Nat) : Nat :=
      let leaf := fld e 1 1 == 1
      if fld e 0 1 = 0 then 1
      else if fld e 6 6 ≠ 0 || fld e 52 12 ≠ 0 || fld e 4 2 = 3 || (leaf && level = 3) || (!leaf && level = 0) ||
          (leaf && fld e 12 40 * 4096 % size ≠ 0) then 9
      else 0
    let big := entry (idx / 16 * 16)
    let contig := level = 0 && fld big 3 1 = 1
    let size := if contig then 2 ^ 16 else 2 ^ shift
    let first := if level = 0 then check big size else 0
    let e := if contig then big else entry idx
    let code := if first ≠ 0 then first else check e size
    if tier2Size < table + 4096 then (4, 0, 0)
    else if code ≠ 0 then (code, 0, 0)
    else if fld e 1 1 = 1 then (if wr && fld e 2 1 = 0 then (2, 0, 0) else (0, fld e 4 2, fld e 12 40 * 4096 + vva % size))
    else pageWalk tier2 vva wr level (fld e 12 40 * 4096)

/-- Where a byte of a variable target lies: the code or 0, the target as R119 numbers it, the address. A variable virtual address
that leaves its space has code 10, and a page beyond the second tier's end code 4 (R116, R122; log entry 132). -/
def State.variablePlace (s : State) (k : Nat) (paged : Bool) (kind addr : Nat) (wr : Bool) : Nat × Nat × Nat :=
  if !paged then (0, kind, addr)
  else
    let r := pageWalk s.tier2 addr wr 4 (s.part k).vptroot.toNat
    (if 2 ^ 48 ≤ addr then 10 else if r.1 = 0 && r.2.1 = 0 && tier2Size ≤ r.2.2 then 4 else r.1, r.2.1 + 2, r.2.2)

/-- TRFSTAT and TRFADDR of a translation fault (R121). -/
def trfRegs (s : State) (x : Xlate) (pa : Nat) : List (Nat × Word) :=
  [(0x043, BitVec.ofNat 64 (1 + x.cause * 2 + (if x.cause = 1 then 0 else x.entry) * 2 ^ 4 + s.ct32 * 2 ^ 32)),
   (0x044, BitVec.ofNat 64 pa)]

/-- Translation fault at issue (R118). -/
def State.xlateCheck (s : State) (slot : Nat) (x : Xlate) (pa : Nat) : State :=
  s.foundIf (x.cause ≠ 0) 0x07 slot (trfRegs s x pa)

/-- A Yard line read: correctable words are corrected and counted in the die's YDCECNT, an uncorrectable one or a poisoned
line delivers poison; a corrected word is rewritten (R136; log entry 159). -/
def State.yardRead (s : State) (addr : Nat) : (Line × Bool) × State :=
  let marks := markedWords s.yardCe addr 64
  let die := addr / 2 ^ 26
  let s1 := if marks.isEmpty then s
    else { s with
      yardCe := s.yardCe.filter fun w => !marks.contains w
      ydcecnt := tput 0 s.ydcecnt die (satAdd32 (tget 0 s.ydcecnt die) marks.length) }
  if s.yardPoison.contains (addr / 64) || !(markedWords s.yardUe addr 64).isEmpty then ((poisonLine, true), s1)
  else ((readLine s.yard addr, false), s1)

/-- A Yard line write, with the poison of the line (R136). -/
def State.yardWrite (s : State) (addr : Nat) (d : Line) (psn : Bool) : State :=
  { s with
    yard := writeLine s.yard addr d
    yardPoison := if psn then insNat (addr / 64) s.yardPoison else without (addr / 64) s.yardPoison
    yardCe := s.yardCe.filter fun w => w / 8 ≠ addr / 64
    yardUe := s.yardUe.filter fun w => w / 8 ≠ addr / 64 }

/-- The barrier that an offset names (R130). -/
def barrierOf (x : Brick) (o : Nat) : Nat :=
  let v := (sysGet x 0x045).toNat
  (fld v 8 5 + o) % (fld v 0 5 + 1)

/-- A variable command is accepted at t+0, unless the queue, the status word or the barrier forbids it (R125, R127). The
command names its status word and barrier offset; the queue holds it with its barrier, its epoch and where it issued. -/
def State.acceptVariable (s : State) (slot off : Nat) (c : VCmd) : State :=
  let x := s.cur
  let id := barrierOf x off
  let word := tget 0 x.var.vs c.vs
  let bad := 32 ≤ x.var.queue.length || word.getLsbD 0 || tget 0 x.var.barriers id = 255
  if bad then s.foundAt 0x11 slot
  else { s with issue := { s.issue with taken := c.vs :: s.issue.taken } }.onCur fun x =>
    { x with
      var := { x.var with
        queue := x.var.queue ++ [{ c with
          bar := id, epoch := x.var.epoch, was := word, pc := s.issue.pc, issue := s.issue.issue, since := s.ct, clk := x.seq.clk }]
        vs := tput 0 x.var.vs c.vs 1
        barriers := tput 0 x.var.barriers id (tget 0 x.var.barriers id + 1) } }

/-- A variable command ends: DONE, ERR with its code, the barrier's count falls (R125). -/
def endVariable (x : Brick) (vs code : Nat) : Brick :=
  match x.var.queue.find? fun c => c.vs == vs with
  | none => x
  | some c =>
    let w := (tget 0 x.var.vs vs).toNat
    let keep := w / 2 ^ 12 * 2 ^ 12 + fld w 4 1 * 16
    let v := keep + 2 + (if code = 0 then 0 else 4 + code * 2 ^ 8)
    { x with
      var := { x.var with
        queue := x.var.queue.filter fun d => d.vs ≠ vs
        vs := tput 0 x.var.vs vs (BitVec.ofNat 64 v)
        barriers := tput 0 x.var.barriers c.bar (tget 0 x.var.barriers c.bar - 1) } }

/-- Put n bits of a number at a place of a word. -/
def putFld (w lo n v : Nat) : Nat := w - fld w lo n * 2 ^ lo + v % 2 ^ n * 2 ^ lo

/-- The status word of a running transfer (R125). -/
def setVs (x : Brick) (v : Nat) (f : Nat → Nat) : Brick :=
  let w := (tget 0 x.var.vs v).toNat
  { x with var := { x.var with vs := tput 0 x.var.vs v (BitVec.ofNat 64 (f w)) } }

/-- A command ends with a code and the offset of its first fault (R125). -/
def endVariableAt (x : Brick) (v code off : Nat) : Brick := endVariable (setVs x v fun w => putFld w 32 32 off) v code

end Sys2Proof.Machine
end

