-- ==== Sys2Proof/Machine/VectorX.lean ====
section
/-! DEFINITION. The X units: integers, logic, compares, selection, float addition and VCVT (R205 to R208, R225 to R229). -/

namespace Sys2Proof.Machine

/-- Element width of an integer type (R200). -/
def etyBits : ETy → Nat
  | .i8 => 8
  | .i16 => 16
  | .i32 => 32

/-- The binary format of a float family's type code (R57). -/
def floatFmt (bf : Bool) : BinFmt := if bf then bf16 else f32

/-- A quiet element operation over a and b (R205). -/
def vecInt (o : SlotOp) (w : Nat) (f : Nat → Nat → Nat) (s : State) : State :=
  vecOp o [o.a, o.b] 2 w (fun a b _ => .quiet (zipElems w f a b)) s

/-- A float element operation over a and b (R208). -/
def vecFloat (o : SlotOp) (lat : Nat) (fm : BinFmt) (f : Nat → Nat → Nat × Events) (s : State) : State :=
  vecOp o [o.a, o.b] lat fm.width (fun a b _ => .zip fm.width f a b) s

/-- An integer compare (R206). -/
def vecCmpInt (o : SlotOp) (w : Nat) (f : Int → Int → Bool) (uns : Bool) (s : State) : State :=
  vecPred o [o.a, o.b] 2 w (fun a b =>
    .pred w (List.zipWith (fun x y => (f (intVal w (!uns) x) (intVal w (!uns) y), .none)) (elems w a) (elems w b))) s

/-- A float compare (R208). -/
def vecCmpFloat (o : SlotOp) (fm : BinFmt) (kind : Nat) (s : State) : State :=
  vecPred o [o.a, o.b] 2 fm.width (fun a b => .pred fm.width (List.zipWith (fm.cmp kind) (elems fm.width a) (elems fm.width b))) s

/-- A predicate operation (R206). -/
def predOp (o : SlotOp) (opds : List Opd) (f : BitVec 64 → BitVec 64 → BitVec 64) (s : State) : State :=
  let x := s.cur
  let c := clusterOf o.pos
  vecPred o opds 2 32 (fun _ _ => .quiet ((f (predVal x c o.a) (predVal x c o.b)).setWidth 512)) s

/-- Clamp to the signed range of w bits (R205). -/
def clampSigned (w : Nat) (x : Int) : Int := max (-(2 ^ (w - 1))) (min (2 ^ (w - 1) - 1) x)

/-- VADD.t on one element (R205). -/
def addElem (w : Nat) (sat : Bool) (a b : Nat) : Nat :=
  if sat then ofInt w (clampSigned w (toSigned w a + toSigned w b)) else (a + b) % 2 ^ w

/-- VSUB.t on one element (R205). -/
def subElem (w : Nat) (sat uns : Bool) (a b : Nat) : Nat :=
  if sat then if uns then a - b else ofInt w (clampSigned w (toSigned w a - toSigned w b))
  else ofInt w ((a : Int) - (b : Int))

/-- VSHR.t on one element (R205). -/
def shrElem (w : Nat) (uns : Bool) (a b : Nat) : Nat :=
  if uns then a / 2 ^ (b % w) else ofInt w (toSigned w a / 2 ^ (b % w))

/-- VMIN.t and VMAX.t on one element (R205). -/
def minmaxElem (w : Nat) (isMax uns : Bool) (a b : Nat) : Nat :=
  if (intVal w (!uns) a < intVal w (!uns) b) != isMax then a else b

/-- VMOV (R205). -/
def execVmov (o : SlotOp) (s : State) : Host.Outcome State Fault Refusal := .next (vecOp o [o.a] 2 32 (fun a _ _ => .quiet a) s)

/-- VAND (R205). -/
def execVand (o : SlotOp) (s : State) : Host.Outcome State Fault Refusal :=
  .next (vecOp o [o.a, o.b] 2 32 (fun a b _ => .quiet (a &&& b)) s)

/-- VOR (R205). -/
def execVor (o : SlotOp) (s : State) : Host.Outcome State Fault Refusal :=
  .next (vecOp o [o.a, o.b] 2 32 (fun a b _ => .quiet (a ||| b)) s)

/-- VXOR (R205). -/
def execVxor (o : SlotOp) (s : State) : Host.Outcome State Fault Refusal :=
  .next (vecOp o [o.a, o.b] 2 32 (fun a b _ => .quiet (a ^^^ b)) s)

/-- VANDN: a and not b (R205). -/
def execVandn (o : SlotOp) (s : State) : Host.Outcome State Fault Refusal :=
  .next (vecOp o [o.a, o.b] 2 32 (fun a b _ => .quiet (a &&& ~~~b)) s)

/-- VSHL.t (R205). -/
def execVshlT (t : ETy) (o : SlotOp) (s : State) : Host.Outcome State Fault Refusal :=
  .next (vecInt o (etyBits t) (fun a b => a * 2 ^ (b % etyBits t) % 2 ^ etyBits t) s)

/-- VSHR.t (R205). -/
def execVshrT (t : ETy) (o : SlotOp) (s : State) : Host.Outcome State Fault Refusal :=
  .next (vecInt o (etyBits t) (shrElem (etyBits t) (isUns o)) s)

/-- VADD.t (R205). -/
def execVaddT (t : ETy) (o : SlotOp) (s : State) : Host.Outcome State Fault Refusal :=
  .next (vecInt o (etyBits t) (addElem (etyBits t) (isSat o)) s)

/-- VSUB.t (R205). -/
def execVsubT (t : ETy) (o : SlotOp) (s : State) : Host.Outcome State Fault Refusal :=
  .next (vecInt o (etyBits t) (subElem (etyBits t) (isSat o) (isUns o)) s)

/-- VMIN.t (R205). -/
def execVminT (t : ETy) (o : SlotOp) (s : State) : Host.Outcome State Fault Refusal :=
  .next (vecInt o (etyBits t) (minmaxElem (etyBits t) false (isUns o)) s)

/-- VMAX.t (R205). -/
def execVmaxT (t : ETy) (o : SlotOp) (s : State) : Host.Outcome State Fault Refusal :=
  .next (vecInt o (etyBits t) (minmaxElem (etyBits t) true (isUns o)) s)

/-- VCMPEQ.t (R206). -/
def execVcmpeqT (t : ETy) (o : SlotOp) (s : State) : Host.Outcome State Fault Refusal :=
  .next (vecCmpInt o (etyBits t) (fun a b => a == b) true s)

/-- VCMPLT.t (R206). -/
def execVcmpltT (t : ETy) (o : SlotOp) (s : State) : Host.Outcome State Fault Refusal :=
  .next (vecCmpInt o (etyBits t) (fun a b => a < b) (isUns o) s)

/-- VCMPLE.t (R206). -/
def execVcmpleT (t : ETy) (o : SlotOp) (s : State) : Host.Outcome State Fault Refusal :=
  .next (vecCmpInt o (etyBits t) (fun a b => a ≤ b) (isUns o) s)

/-- VSEL: the predicate of its own cluster that mod[3:0] names (R206). -/
def execVsel (o : SlotOp) (s : State) : Host.Outcome State Fault Refusal :=
  let p := readP s.cur (clusterOf o.pos) (o.mod % 16)
  .next (vecOp o [o.a, o.b, .pred false (o.mod % 16)] 2 32 (fun a b _ => .quiet (mergeLine p a b)) s)

/-- PAND (R206). -/
def execPand (o : SlotOp) (s : State) : Host.Outcome State Fault Refusal := .next (predOp o [o.a, o.b] (fun a b => a &&& b) s)

/-- POR (R206). -/
def execPor (o : SlotOp) (s : State) : Host.Outcome State Fault Refusal := .next (predOp o [o.a, o.b] (fun a b => a ||| b) s)

/-- PXOR (R206). -/
def execPxor (o : SlotOp) (s : State) : Host.Outcome State Fault Refusal := .next (predOp o [o.a, o.b] (fun a b => a ^^^ b) s)

/-- PNOT (R206). -/
def execPnot (o : SlotOp) (s : State) : Host.Outcome State Fault Refusal := .next (predOp o [o.a] (fun a _ => ~~~a) s)

/-- VADD.f (R208). -/
def execVaddF (bf : Bool) (o : SlotOp) (s : State) : Host.Outcome State Fault Refusal :=
  .next (vecFloat o 2 (floatFmt bf) (floatFmt bf).add s)

/-- VSUB.f (R208). -/
def execVsubF (bf : Bool) (o : SlotOp) (s : State) : Host.Outcome State Fault Refusal :=
  .next (vecFloat o 2 (floatFmt bf) (floatFmt bf).sub s)

/-- VMIN.f (R208). -/
def execVminF (bf : Bool) (o : SlotOp) (s : State) : Host.Outcome State Fault Refusal :=
  .next (vecFloat o 2 (floatFmt bf) ((floatFmt bf).minmax false) s)

/-- VMAX.f (R208). -/
def execVmaxF (bf : Bool) (o : SlotOp) (s : State) : Host.Outcome State Fault Refusal :=
  .next (vecFloat o 2 (floatFmt bf) ((floatFmt bf).minmax true) s)

/-- VCMPEQ.f (R208). -/
def execVcmpeqF (bf : Bool) (o : SlotOp) (s : State) : Host.Outcome State Fault Refusal := .next (vecCmpFloat o (floatFmt bf) 0 s)

/-- VCMPLT.f (R208). -/
def execVcmpltF (bf : Bool) (o : SlotOp) (s : State) : Host.Outcome State Fault Refusal := .next (vecCmpFloat o (floatFmt bf) 1 s)

/-- VCMPLE.f (R208). -/
def execVcmpleF (bf : Bool) (o : SlotOp) (s : State) : Host.Outcome State Fault Refusal := .next (vecCmpFloat o (floatFmt bf) 2 s)

/-- VABS.f: the sign bit cleared, NaNs included (R208). -/
def execVabsF (bf : Bool) (o : SlotOp) (s : State) : Host.Outcome State Fault Refusal :=
  .next (vecOp o [o.a] 2 32 (fun a _ _ =>
    .quiet (mapElems (floatFmt bf).width (fun x => x % 2 ^ ((floatFmt bf).width - 1)) a)) s)

/-- The format that a format code names at this issue (R229). -/
def resolveFmt (x : Brick) (code : Nat) : Nat :=
  if code = 15 then
    let ftsel := (sysGet x 0x023).toNat
    let level := ftsel % 8
    tget 0 x.formats ((fld ftsel 8 6 + (if level < 6 then (loopIdx x level).toNat else 0)) % 64)
  else code

/-- One part of the wider side converted, element by element (R226). -/
def vcvtRes (fs fd : Nat) (rz : Bool) (p : Nat) (a : Line) : VRes :=
  let ws := fmtWidth fs
  let wd := fmtWidth fd
  let m := 512 / max ws wd
  let from' := if wd < ws then 0 else p * m
  let to' := if wd < ws then p * m else 0
  let rs := (List.range m).map fun i =>
    if fs = fd then (elem ws a (from' + i), Events.none) else convert fs fd rz (elem ws a (from' + i))
  { line := BitVec.ofNat 512 (rs.foldr (fun x acc => x.1 % 2 ^ wd + 2 ^ wd * acc) 0 * 2 ^ (wd * to'))
    writes := maskOf fun j => wd * to' ≤ 8 * j && 8 * j < wd * (to' + m)
    evs := (List.range 64).map fun j =>
      (if wd < 8 then [2 * j, 2 * j + 1] else [8 * j / wd]).foldl (fun acc e =>
        if to' ≤ e then acc.or (rs.getD (e - to') (0, .none)).2 else acc) .none }

/-- The format fault of VCVT: what a format-table entry makes inadmissible (R226). -/
def vcvtFault (fs fd rm p : Nat) (viaFd : Bool) : Bool :=
  fmtWidth fs = 0 || fmtWidth fd = 0 || !(fs = fd || vcvtPair fs fd) || (viaFd && fd = 11 && rm ≠ 0) || fmtRatio fs fd ≤ p

/-- VCVT (R225 to R227). -/
def execVcvt (o : SlotOp) (s : State) : Host.Outcome State Fault Refusal :=
  let x := s.cur
  let fs := resolveFmt x (o.mod % 16)
  let fd := resolveFmt x (o.mod / 16 % 16)
  let p := o.b.index
  let table := o.mod % 16 = 15 || o.mod / 16 % 16 = 15
  if guardTrue x o.g && table && vcvtFault fs fd (o.mod / 256) p (o.mod / 16 % 16 = 15) then .next (s.foundAt 0x0E o.pos)
  else .next (vecOp o [o.a] 2 32 (fun a _ _ => vcvtRes fs fd (o.mod / 256 = 1) p a) s)

end Sys2Proof.Machine
end

