-- ==== Sys2Proof/Machine/Hod.lean ====
section
/-! DEFINITION. The Hod: the coder, records, the hd operations, children, spill windows and HFLUSH (R260 to R290). -/

namespace Sys2Proof.Machine

/-- Words of a unit, and of the stream buffer's 22 units (R261). -/
def unitWords : Nat := 5888
def streamWords : Nat := 22 * unitWords

/-- The base state of a lane (R260). -/
def laneBase : BitVec 32 := 0x00010000

def baseLanes : List (BitVec 32) := List.replicate 32 laneBase

/-- The fields of an element in decode order: a table symbol or a raw field, and its bits (R265). -/
def hodShape (fmt : Nat) (raw : Bool) : List (Bool × Nat) :=
  match fmt, raw with
  | 0x1, false => [(true, 8), (false, 8)]
  | 0x1, true => [(false, 16)]
  | 0x0, false => [(true, 8), (false, 12), (false, 12)]
  | 0x0, true => [(false, 16), (false, 16)]
  | 0x3, r => [(!r, 6)]
  | 0x4, r => [(!r, 4)]
  | _, r => [(!r, 8)]

/-- The values of an element's fields in decode order (R265). -/
def hodFields (fmt : Nat) (raw : Bool) (x : Nat) : List Nat :=
  match fmt, raw with
  | 0x1, false => [fld x 7 8, fld x 15 1 * 2 ^ 7 + fld x 0 7]
  | 0x1, true => [x % 2 ^ 16]
  | 0x0, false => [fld x 23 8, fld x 31 1 * 2 ^ 11 + fld x 12 11, fld x 0 12]
  | 0x0, true => [fld x 16 16, fld x 0 16]
  | 0x3, _ => [x % 2 ^ 6]
  | 0x4, _ => [x % 2 ^ 4]
  | _, _ => [x % 2 ^ 8]

/-- The element that its fields give, of the format's width; LNS6 bits 7 and 6 are zero (R218, R265). -/
def hodElem (fmt : Nat) (raw : Bool) (vs : List Nat) : Nat :=
  let v (i : Nat) := vs.getD i 0
  match fmt, raw with
  | 0x3, _ => v 0 % 2 ^ 6
  | 0x4, _ => v 0 % 2 ^ 4
  | 0x1, false => v 1 / 2 ^ 7 * 2 ^ 15 + v 0 * 2 ^ 7 + v 1 % 2 ^ 7
  | 0x0, false => v 1 / 2 ^ 11 * 2 ^ 31 + v 0 * 2 ^ 23 + v 1 % 2 ^ 11 * 2 ^ 12 + v 2
  | 0x0, true => v 0 * 2 ^ 16 + v 1
  | _, _ => v 0

/-- The cumulative frequency below symbol v (R263). -/
def cumFreq (freqs : List Nat) (v : Nat) : Nat := (freqs.take v).sum

/-- One coding step: the new state and the word pushed, if one is (R263). -/
def encodeStep (x f c k : Nat) : Nat × Option (BitVec 16) :=
  let big := decide (x ≥ f * 2 ^ (32 - k))
  let y := if big then x / 2 ^ 16 else x
  (y / f * 2 ^ k + y % f + c, if big then some (BitVec.ofNat 16 x) else none)

/-- The symbol whose range holds a slot, with its frequency and cumulative frequency (R263). -/
def findSymbol : List Nat → Nat → Nat → Nat → Option (Nat × Nat × Nat)
  | [], _, _, _ => none
  | f :: fs, v, c, slot => if slot < c + f then some (v, f, c) else findSymbol fs (v + 1) (c + f) slot

/-- Code a tile of elements: the lane states and the words pushed, newest first; none when a symbol has frequency 0 or the
words exceed a limit (R264, R265). -/
def codeTile (fmt : Nat) (raw : Bool) (freqs : List Nat) (k ell limit : Nat) (lanes : List (BitVec 32)) (es : List Nat) :
    Option (List (BitVec 32) × List (BitVec 16)) :=
  let steps := (es.zipIdx.reverse).flatMap fun e =>
    ((hodShape fmt raw).zip (hodFields fmt raw e.1)).reverse.map fun p => (e.2 % ell, p.1.1, p.1.2, p.2)
  let r := steps.foldl (fun acc st => match acc with
    | none => none
    | some (ls, ws) =>
      let f := if st.2.1 then freqs.getD st.2.2.2 0 else 1
      let c := if st.2.1 then cumFreq freqs st.2.2.2 else st.2.2.2
      let kk := if st.2.1 then k else st.2.2.1
      if f = 0 then none
      else
        let q := encodeStep (ls.getD st.1 laneBase).toNat f c kk
        some (ls.set st.1 (BitVec.ofNat 32 q.1), match q.2 with | some w => w :: ws | none => ws))
    (some (lanes, ([] : List (BitVec 16))))
  match r with
  | some p => if p.2.length ≤ limit then some p else none
  | none => none

/-- What a decode has done: lane states, words popped, whether one lay below BOT, whether one was bad, whether a slot named
no symbol, the elements newest first. -/
structure Decoded where
  lanes : List (BitVec 32)
  used : Nat
  below : Bool
  bad : Bool
  lost : Bool
  out : List Nat
  deriving DecidableEq, Repr

/-- Decode n elements, popping words from below a position (R263, R264). -/
def decodeTile (fmt : Nat) (raw : Bool) (freqs : List Nat) (k ell n : Nat) (lanes : List (BitVec 32))
    (word : Nat → Option (BitVec 16)) (marked : Nat → Bool) (ptr : Nat) : Decoded :=
  (List.range n).foldl (fun d i =>
    let r := (hodShape fmt raw).foldl (fun (acc : Decoded × List Nat) sh =>
      let d := acc.1
      let x := (d.lanes.getD (i % ell) laneBase).toNat
      let slot := x % 2 ^ (if sh.1 then k else sh.2)
      let sym := if sh.1 then findSymbol freqs 0 0 slot else some (slot, 1, slot)
      let s := sym.getD (0, 1, slot)
      let y := s.2.1 * (x / 2 ^ (if sh.1 then k else sh.2)) + slot - s.2.2
      if y < 2 ^ 16 then
        let q := ptr - 1 - d.used
        let w := if d.used < ptr then word q else none
        ({ d with
            lanes := d.lanes.set (i % ell) (BitVec.ofNat 32 (y * 2 ^ 16 + (w.getD 0).toNat))
            used := d.used + 1
            below := d.below || w.isNone
            bad := d.bad || marked q
            lost := d.lost || sym.isNone }, acc.2 ++ [s.1])
      else
        ({ d with lanes := d.lanes.set (i % ell) (BitVec.ofNat 32 y), lost := d.lost || sym.isNone }, acc.2 ++ [s.1])) (d, [])
    { r.1 with out := hodElem fmt raw r.2 :: r.1.out }) ⟨lanes, 0, false, false, false, []⟩

/-- The word at a position, none below BOT or at TOP and above. -/
def HodCore.word (c : HodCore) (q : Nat) : Option (BitVec 16) :=
  if q < c.bot || c.top ≤ q then none else c.words[c.top - 1 - q]?

/-- Push words, the last of the list first (R263). -/
def HodCore.push (c : HodCore) (ws : List (BitVec 16)) : HodCore :=
  { c with words := ws ++ c.words, top := c.top + ws.length }

/-- Pop down to a position; what was known of the words above it is gone. -/
def HodCore.popTo (c : HodCore) (t : Nat) : HodCore :=
  { c with words := c.words.drop (c.top - t), top := t, bad := c.bad.filter (· < t) }

/-- The word at a position read back with an error, or is lost (R274, R287). -/
def HodCore.marked (c : HodCore) (q : Nat) : Bool := c.bad.contains q

/-- Some word of the lane states that begin at a position is bad. -/
def HodCore.badLanes (c : HodCore) (pos : Nat) : Bool := c.bad.any fun q => pos ≤ q && q < pos + 2 * c.ell

/-- The words of the lane states in the order of their positions, newest first (R277). -/
def laneWords (ell : Nat) (lanes : List (BitVec 32)) : List (BitVec 16) :=
  ((lanes.take ell).flatMap fun (x : BitVec 32) => [x.setWidth 16, (x >>> 16).setWidth 16]).reverse

/-- Push the lane states and set every lane to base (R277, R279). -/
def HodCore.saveLanes (c : HodCore) : HodCore := { (c.push (laneWords c.ell c.lanes)) with lanes := baseLanes }

/-- The lane states whose words begin at a position, where all of them lie in the stream buffer (R277, R282). -/
def HodCore.lanesAt (c : HodCore) (pos : Nat) : Option (List (BitVec 32)) :=
  (List.range c.ell).foldl (fun acc j =>
    match acc, c.word (pos + 2 * j), c.word (pos + 2 * j + 1) with
    | some ls, some lo, some hi => some (ls.set j (hi.setWidth 32 <<< 16 ||| lo.setWidth 32))
    | _, _, _ => none) (some baseLanes)

/-- Fields of a record (R267). -/
def HodRec.kind (r : HodRec) : Nat := fld r.bits.toNat 0 2
def HodRec.raw (r : HodRec) : Bool := r.bits.getLsbD 2
def HodRec.isChild (r : HodRec) : Bool := r.bits.getLsbD 3
def HodRec.count (r : HodRec) : Nat := fld r.bits.toNat 14 6
def HodRec.tag (r : HodRec) : Nat := fld r.bits.toNat 20 16
def HodRec.words (r : HodRec) : Nat := fld r.bits.toNat 36 28

/-- The bits of a record (R267). -/
def recBits (kind : Nat) (raw child : Bool) (fmt table count tag words : Nat) : BitVec 64 :=
  BitVec.ofNat 64 (kind + raw.toNat * 2 ^ 2 + child.toNat * 2 ^ 3 + fmt * 2 ^ 4 + table * 2 ^ 8 + count * 2 ^ 14 + tag * 2 ^ 20 +
    words * 2 ^ 36)

/-- Elements of a tile. -/
def tileSize (o : HdOp) : Nat := 64 * (o.count + 1)

/-- Lines of a tile (R273). -/
def tileLines (o : HdOp) (fmt : Nat) : Nat := (tileSize o * fmtWidth fmt + 511) / 512

/-- The number that lines hold, line 0 lowest. -/
def linesNat (ls : List Line) : Nat := ls.foldr (fun l acc => l.toNat + 2 ^ 512 * acc) 0

/-- The header of the SPLIT block on top, and whether every child of it is emptied (R282). -/
def HodCore.block (c : HodCore) : Option HodRec := c.recs.find? fun r => r.kind == 3 && !r.isChild

/-- A SPLIT block is on top of the record stack. -/
def HodCore.onBlock (c : HodCore) : Bool := match c.recs with | r :: _ => r.kind == 3 | [] => false

/-- Child i of the block on top. -/
def HodCore.childOf (c : HodCore) (i : Nat) : Option HodChild :=
  c.block.bind fun h => c.children.find? fun k => k.hdr == h.pos && k.idx == i

/-- What an operation does to the stack: a fault's code and cause or (0, 0), the new state, the lines of a pop. `coming` are the
words that a refill is bringing (R270 to R282). -/
structure HodEffect where
  code : Nat
  cause : Nat
  core : HodCore
  lines : List Line
  deriving DecidableEq, Repr

def HodEffect.ok (c : HodCore) : HodEffect := ⟨0, 0, c, []⟩

/-- HPUSH at its record cycle (R265, R273). -/
def pushEffect (c : HodCore) (f : HodFlight) (coming : Nat) : HodEffect :=
  let n := tileSize f.op
  let w := fmtWidth f.fmt
  let es := (List.range n).map fun e => fld (linesNat f.lines) (w * e) w
  let r := match codeTile f.fmt false f.freqs f.prec c.ell (n * w / 16) c.lanes es with
    | some p => (false, p)
    | none => (true, (codeTile f.fmt true f.freqs f.prec c.ell (2 * n + 32) c.lanes es).getD (c.lanes, []))
  let d := { (c.push r.2.2) with
    lanes := r.2.1
    recs := ⟨recBits 1 r.1 false f.fmt f.op.table f.op.count f.op.tag r.2.2.length, c.top⟩ :: c.recs }
  ⟨if d.top - d.bot + coming > streamWords then 0x0A else 0, if d.top - d.bot + coming > streamWords then 5 else 0, d, []⟩

/-- The lines of a popped tile; bytes that hold no element are zero (R274). -/
def popLines (f : HodFlight) (es : List Nat) : List Line :=
  let w := fmtWidth f.fmt
  let v := es.foldr (fun x acc => x + 2 ^ w * acc) 0
  (List.range f.lt).map fun j => BitVec.ofNat 512 (v / 2 ^ (512 * j))

/-- The fault of a pop at its commit (R274). -/
def popFault (d : Decoded) (words : Nat) (notBase : Bool) : Nat × Nat :=
  if d.below then (0x04, 6)
  else if d.bad then (0x0B, 9)
  else if d.lost || d.used ≠ words then (0x09, 7)
  else if notBase then (0x09, 8)
  else (0, 0)

/-- HPOP of the top record (R274). -/
def popEffect (c : HodCore) (f : HodFlight) : HodEffect :=
  match c.recs with
  | [] => .ok c
  | r :: rest =>
    let d := decodeTile f.fmt r.raw f.freqs f.prec c.ell (tileSize f.op) c.lanes c.word c.marked c.top
    let e := popFault d r.words (rest.isEmpty && d.lanes.any (· ≠ laneBase))
    ⟨e.1, e.2, { (c.popTo (c.top - d.used)) with lanes := d.lanes, recs := rest }, popLines f d.out.reverse⟩

/-- HPOP of a child of the block on top; the last pop of the last child removes the block (R282). -/
def popChildEffect (c : HodCore) (f : HodFlight) (i : Nat) : HodEffect :=
  match c.block, c.childOf i with
  | some h, some k =>
    match k.recs with
    | [] => .ok c
    | r :: rest =>
      let d := decodeTile f.fmt r.raw f.freqs f.prec k.ell (tileSize f.op) k.lanes c.word c.marked k.ptr
      let e := popFault d r.words (rest.isEmpty && d.lanes.any (· ≠ laneBase))
      let k' := { k with lanes := d.lanes, recs := rest, ptr := k.ptr - d.used, fresh := false }
      let kids := c.children.map fun q => if q.hdr = k.hdr && q.idx = k.idx then k' else q
      let ls := popLines f d.out.reverse
      if kids.any fun q => q.hdr == h.pos && !q.recs.isEmpty then ⟨e.1, e.2, { c with children := kids }, ls⟩
      else
        match c.lanesAt h.pos with
        | none => if e.1 = 0 then ⟨0x04, 6, { c with children := kids }, ls⟩ else ⟨e.1, e.2, { c with children := kids }, ls⟩
        | some saved =>
          let e := if e.1 = 0 && c.badLanes h.pos then (0x0B, 9) else e
          ⟨e.1, e.2, { (c.popTo h.pos) with
            lanes := saved
            recs := c.recs.drop (h.count + 2)
            children := kids.filter fun q => q.hdr ≠ h.pos }, ls⟩
  | _, _ => .ok c

/-- A mark's words go back into the lanes and its record goes (R277, R278); words below BOT are not there to pop, and bad words
are no lane states (R287; log entry 112). -/
def dropMark (c : HodCore) (r : HodRec) (rest : List HodRec) : HodEffect :=
  match c.lanesAt r.pos with
  | some ls => if c.badLanes r.pos then ⟨0x0B, 9, c, []⟩ else .ok { (c.popTo r.pos) with lanes := ls, recs := rest }
  | none => ⟨0x04, 6, c, []⟩

/-- A cut to a mark whose words lie in the units held: the lanes take them from there, the unit that holds the mark's foot comes
back to the stream buffer as far as the new TOP, with what a refill has brought below it, and the units above it are freed (R278, R285; log
entry 113). -/
def cutBelow (c : HodCore) (r : HodRec) (rest : List HodRec) (held : List (BitVec 16 × Bool)) : HodEffect :=
  let foot := r.pos + 2 * c.ell - held.length
  let keep := held.take (r.pos - foot)
  let ws := (held.drop (r.pos - foot)).take (2 * c.ell)
  let word (i : Nat) : BitVec 32 := ((ws.getD i (0, false)).1).setWidth 32
  let lanes := (List.range c.ell).foldl (fun ls j => ls.set j (word (2 * j + 1) <<< 16 ||| word (2 * j))) baseLanes
  if ws.any (·.2) then ⟨0x0B, 9, c, []⟩
  else .ok { c with
    lanes := lanes
    words := (keep.map (·.1)).reverse
    top := r.pos
    bot := foot
    recs := rest
    bad := (keep.zipIdx).filterMap fun w => if w.1.2 then some (foot + w.2) else none }

/-- HSPLIT: the header and one entry for each child (R279). -/
def splitEffect (c : HodCore) (f : HodFlight) : HodEffect :=
  let n := f.op.count + 1
  let d := c.saveLanes
  let hdr : HodRec := ⟨recBits 3 false false 0 0 f.op.count f.op.tag (2 * c.ell), c.top⟩
  let entries := (List.range n).map fun i => (⟨recBits 3 false true 0 0 i f.op.tag 0, d.top⟩ : HodRec)
  .ok { d with
    mode := .splitWait
    recs := entries.reverse ++ hdr :: c.recs
    children := c.children ++ (List.range n).map fun i =>
      { hdr := c.top, idx := i, state := 0, ell := 1, lanes := baseLanes, recs := [], base := 0, ptr := 0, fresh := true } }

/-- HSEAL: the final lanes, the records oldest first as four words each, their count as two (R280). -/
def sealEffect (c : HodCore) : HodEffect :=
  let recWords := (c.recs.reverse).flatMap fun r => (List.range 4).map fun i => BitVec.ofNat 16 (r.bits.toNat / 2 ^ (16 * i))
  let cnt := [BitVec.ofNat 16 c.recs.length, BitVec.ofNat 16 (c.recs.length / 2 ^ 16)]
  .ok { ((c.push (laneWords c.ell c.lanes)).push ((recWords ++ cnt).reverse)) with mode := .sealing }

/-- A child's place in the block on top of its parent's stack: the entry's record and the child's state take its records, its words
and its ℓ; n words land at TOP (R280). -/
def HodCore.arrive (c : HodCore) (k : HodChild) (h : HodCore) (ws : List (BitVec 16 × Bool)) : HodCore :=
  let kids := match c.block with | some r => r.count + 1 | none => 0
  let foot := c.top + (h.recs.map (·.words)).sum
  { (c.push (ws.map (·.1)).reverse) with
    bad := c.bad ++ (ws.zipIdx).filterMap fun w => if w.1.2 then some (c.top + w.2) else none
    recs := (c.recs.take kids).map (fun r =>
      if r.isChild && r.count = k.idx then ⟨recBits 3 false true 0 (h.ell - 1) k.idx r.tag ws.length, c.top⟩ else r) ++
        c.recs.drop kids
    children := c.children.map fun q =>
      if q = k then
        { k with
          state := 1, ell := h.ell, lanes := h.lanes, recs := h.recs.map fun r => { r with pos := r.pos + c.top }
          base := foot, ptr := foot }
      else q }

/-- Entry i of the block on top fails (R280). -/
def HodCore.failChild (c : HodCore) (i : Nat) : HodCore :=
  match c.childOf i with
  | some k => { c with children := c.children.map fun q => if q = k then { q with state := 2 } else q }
  | none => c

/-- A child arrives, or its entry fails, behind operations in flight (R270, R280). -/
def arrivalEffect (c : HodCore) (f : HodFlight) : HodEffect :=
  let i := f.child.getD 0
  match c.childOf i, f.kid with
  | some k, some h => .ok (c.arrive k h f.held)
  | _, _ => .ok (c.failChild i)

/-- The effect of an operation in issue order (R270). -/
def hodEffect (coming : Nat) (c : HodCore) (f : HodFlight) : HodEffect :=
  match f.opc with
  | 1 => .ok { HodCore.reset with mode := if f.op.fmt = 1 then .child else .root, ell := f.op.count + 1 }
  | 2 => pushEffect c f coming
  | 3 => match f.child with
    | none => popEffect c f
    | some i => popChildEffect c f i
  | 4 =>
    if f.op.fmt = 1 then
      match c.recs with
      | r :: rest => dropMark c r rest
      | [] => .ok c
    else .ok { c.saveLanes with recs := ⟨recBits 2 false false 0 0 (c.ell - 1) f.op.tag (2 * c.ell), c.top⟩ :: c.recs }
  | 5 =>
    match c.recs.dropWhile (fun r => r.kind != 2) with
    | r :: rest =>
      let kids := c.children.filter fun k => k.hdr < r.pos
      if r.pos < c.bot then cutBelow { c with children := kids } r rest f.held
      else dropMark { (c.popTo (min c.top (r.pos + 2 * c.ell))) with children := kids } r rest
    | [] => .ok c
  | 6 => splitEffect c f
  | 7 => sealEffect c
  | 8 => .ok { c with mode := .root }
  | 12 => .ok { HodCore.reset with ell := c.ell }
  | 13 => arrivalEffect c f
  | _ => .ok c

/-- Units of a window of a kind that have still to move (R273, R285, R286). -/
def Hod.moving (h : Hod) (kind : WinKind) : Nat :=
  match h.win with
  | some w => if w.kind = kind && !w.stopped then w.n else 0
  | none => 0

/-- Words that a refill is bringing (R273). -/
def Hod.coming (h : Hod) : Nat := h.moving .refill * unitWords

/-- The stack with the flights of a list applied in their order. -/
def Hod.after (h : Hod) (fs : List HodFlight) : HodCore :=
  fs.foldl (fun c f => (hodEffect h.coming c f).core) h.core

/-- The stack in issue order: every operation issued, applied (R270). -/
def Hod.issued (h : Hod) : HodCore := h.after h.flights

/-- Table t at a plan count: an HTBL's contents stand from t+2 (R275). -/
def Hod.table (h : Hod) (clk t : Nat) : List Nat × Nat :=
  match (h.flights.reverse).find? fun f => f.opc == 9 && f.op.table == t && f.due ≤ clk with
  | some f => (f.freqs, f.prec)
  | none => tget (List.replicate 256 0, 12) h.tables t

/-- The word of HFSTAT (R289). -/
def hfWord (s : State) (cause : Nat) (late : Bool) (opc tag : Nat) : Word :=
  BitVec.ofNat 64 (1 + cause * 2 + late.toNat * 2 ^ 5 + opc % 16 * 2 ^ 8 + tag % 2 ^ 16 * 2 ^ 12 + s.ct32 * 2 ^ 32)

/-- A Hod fault at issue with its record (R289). -/
def State.hodFault (s : State) (c : Bool) (code cause opc : Nat) (o : HdOp) : State :=
  s.foundIf c code 38 [(0x04F, hfWord s cause false opc o.tag)]

/-- The units held that lie wholly or in part below a position: of HBM and of the deep region (R278, R283). -/
def Hod.unitsBelow (h : Hod) (pos : Nat) : Nat × Nat :=
  let u := pos / unitWords
  (min h.hbmUnits (u - h.deepUnits), min h.deepUnits u)

/-- Of an HFLUSH's units those below unit u are still held (R278, R285). -/
def HodFlush.keep (f : HodFlush) (u : Nat) : HodFlush := { f with live := min f.live (u - f.first) }

/-- Units above BOT are freed where a cut has brought BOT down, those of an HFLUSH too; a refill or spill under way then moves nothing,
but for a refill of the units right below the new BOT, which was decided on after the cut (R278, R285). -/
def Hod.freeUnits (h : Hod) (bot : Nat) : Hod :=
  if h.core.bot < bot then
    let n := h.unitsBelow h.core.bot
    { h with
      hbmUnits := n.1
      deepUnits := n.2
      lost := h.lost.filter (· < h.core.bot / unitWords)
      flush := h.flush.map fun f => f.keep (h.core.bot / unitWords)
      win := h.win.map fun w =>
        if (w.kind = .refill && unitWords * (w.first + w.n) ≠ h.core.bot) || w.kind = .spill then { w with stopped := true } else w }
  else h

/-- The unit holds nothing any more below the stream buffer, and its window moves nothing (R272, R280). -/
def Hod.emptied (h : Hod) : Hod :=
  { h with
    hbmUnits := 0
    deepUnits := 0
    lost := []
    flush := h.flush.map fun f => { f with live := 0 }
    win := h.win.map fun w => { w with stopped := true } }

/-- An operation's effect on the stack, and on the units and tables beside it (R270, R272, R275, R278). -/
def Hod.apply (h : Hod) (f : HodFlight) : Hod :=
  let g := { h with core := (hodEffect h.coming h.core f).core }
  match f.opc with
  | 5 => g.freeUnits h.core.bot
  | 9 => { g with tables := tins g.tables f.op.table (f.freqs, f.prec) }
  | 1 | 12 => g.emptied
  | _ => g

/-- The stack as it shows, v, after an operation that takes the stack in issue order from c to d: what the operation adds and takes away
is what it does in issue order; what earlier operations still in flight will take away or add shows as before (R270, R276). A cut, an open
and a close leave nothing of that. -/
def HodCore.show (v c d : HodCore) (opc : Nat) : HodCore :=
  if opc = 1 || opc = 5 || opc = 12 || v = c then d
  else
    let n := d.recs.length - c.recs.length
    let gone := c.recs.take (c.recs.length - d.recs.length)
    let now (r : HodRec) : HodRec := if n = 0 && gone.isEmpty then (((c.recs.zip d.recs).find? fun q => q.1 == r).map (·.2)).getD r else r
    let extra := v.words.length - c.words.length
    { d with
      top := v.top + d.top - c.top
      bot := v.bot
      recs := d.recs.take n ++ (gone.foldl List.erase v.recs).map now
      words := d.words.take (d.words.length - c.words.length) ++ v.words.take extra ++ v.words.drop (extra + (c.words.length - d.words.length)) }

/-- One operation in issue order: the unit with it applied, and the unit as it shows, where its cycle has come (R276). -/
def Hod.showNext (clk : Nat) (acc : Hod × Hod) (f : HodFlight) : Hod × Hod :=
  let h := acc.1.apply f
  if clk < f.due then (h, acc.2)
  else
    let v := { acc.2 with core := acc.2.core.show acc.1.core h.core f.opc }
    (h, match f.opc with
      | 5 => v.freeUnits acc.2.core.bot
      | 1 | 12 => v.emptied
      | _ => v)

/-- The unit as HSTAT shows it at a plan count: every operation applied whose cycle has come, each as issue order makes it (R270, R276). -/
def Hod.seen (h : Hod) (clk : Nat) : Hod := (h.flights.foldl (Hod.showNext clk) (h, h)).2

/-- An operation whose cycle has come leaves the list once all before it have (R270): its effect stands. -/
def retireHod (h : Hod) (clk : Nat) : Hod :=
  let done := h.flights.takeWhile fun f => f.due ≤ clk
  { done.foldl Hod.apply h with flights := h.flights.drop done.length }

/-- A variable command of the Hod is taken back: its status word and barrier are as before its acceptance (R270). -/
def cancelVar (x : Brick) (p : VCmd → Bool) : Brick :=
  (x.var.queue.filter p).foldl (fun x c =>
    { x with
      var := { x.var with
        queue := x.var.queue.filter fun d => d.vs ≠ c.vs
        vs := tput 0 x.var.vs c.vs c.was
        barriers := tput 0 x.var.barriers c.bar (tget 0 x.var.barriers c.bar - 1) } }) x

/-- A late fault: the stack is as before the operation, and that operation and every later one are cancelled, with what they
asked of the variable engine (R270). -/
def State.failHod (s : State) (b idx code : Nat) (reg : Nat × Word) : State :=
  let x := s.brick b
  match x.hod.flights[idx]? with
  | none => s
  | some f =>
    let gone := x.hod.flights.drop (idx + 1)
    let later (c : VCmd) : Bool := (c.opc == 7 || c.opc == 11) && f.clk < c.clk
    let s1 := s.onBrick b fun x =>
      let flushes := x.var.queue.any fun c => c.opc == 11 && later c
      let y := cancelVar x later
      { y with
        hod := { y.hod with
          flights := x.hod.flights.take idx
          deadAt := x.seq.clk + 1
          flush := if flushes then none else y.hod.flush
          staged := if flushes then [] else y.hod.staged
          stagedBad := if flushes then [] else y.hod.stagedBad
          win := y.hod.win.map fun w =>
            if flushes && (w.kind = .down || w.kind = .up) then { w with stopped := true } else w }
        flights := x.flights.filter fun g =>
          !(g.slot == 38 && gone.any fun q => q.opc == 10 && q.pc == g.pc && q.issue == g.issue && q.due == g.due) }
    s1.lateOf b code 38 f.pc f.issue [reg]

/-- The operations of the Hod whose cycle is this one, in issue order (R270, R273, R274, R290). -/
def State.hodDue (s : State) (b : Nat) : State :=
  let clk := (s.brick b).seq.clk
  let s1 := ((s.brick b).hod.flights.filter fun f => f.due == clk).foldl (fun s f =>
    let h := (s.brick b).hod
    match h.flights.findIdx? (· == f) with
    | none => s
    | some i =>
      let e := hodEffect h.coming (h.after (h.flights.take i)) f
      if e.code ≠ 0 then s.failHod b i e.code (0x04F, hfWord s e.cause true f.opc f.op.tag)
      else if f.opc = 3 then
        s.onBrick b fun x =>
          { x with
            hod := { x.hod with
              drives := x.hod.drives ++ (e.lines.zipIdx).map fun p => (clk + p.2, f.op.aw, f.op.lane, p.1) } }
      else s) s
  s1.onBrick b fun x =>
    let ds := x.hod.drives.filter fun d => d.1 = clk
    let y := ds.foldl (fun x d => fillLane x d.2.1 d.2.2.1 17 clk d.2.2.2) x
    { y with hod := retireHod { y.hod with drives := y.hod.drives.filter fun d => d.1 ≠ clk } clk }

/-- The further taps of pushes in flight; an empty one is a late fault (R273). -/
def State.hodTaps (s : State) (b : Nat) : State :=
  ((s.brick b).hod.flights).foldl (fun s f =>
    if f.opc = 2 && f.left ≠ 0 then
      let x := s.brick b
      match x.hod.flights.findIdx? (· == f) with
      | none => s
      | some i =>
        match tap x f.op.aw f.op.lane 17 with
        | some d =>
          s.onBrick b fun x =>
            { x with
              hod := { x.hod with
                flights := x.hod.flights.set i { f with left := f.left - 1, lines := f.lines ++ [d] } } }
        | none => s.failHod b i 0x04 (0x048, rgfTap s f.op.aw f.op.lane 17)
    else s) s

/-- The issue checks that do not look at the guard: the windows of HOPEN and HCLOSE, the coder's interval, HCLOSE with an
operation in flight (R71, R271, R272). -/
def State.hodIllegal (s : State) (opc : Nat) : State :=
  let x := s.cur
  let h := x.hod
  s.foundIf ((opc ≠ 10 && x.seq.clk < h.openUntil) ||
    ([2, 3, 5, 6, 7].contains opc && x.seq.clk < h.coderFree) ||
    (opc = 12 && (!h.flights.isEmpty || h.flush.isSome))) 0x01 38

/-- An operation joins those in flight, unless it issues on the cycle of a late fault (R270). -/
def State.hodFly (s : State) (opc lat : Nat) (o : HdOp) (f : HodFlight → HodFlight := id) : State :=
  let g := f { due := s.cur.seq.clk + lat, opc := opc, op := o, fmt := 0, freqs := [], prec := 0, lt := 0, left := 0, lines := [],
               child := none, clk := s.cur.seq.clk, held := [], pc := s.issue.pc, issue := s.issue.issue }
  s.onCur fun x => if x.hod.deadAt = x.seq.clk + 1 then x else { x with hod := { x.hod with flights := x.hod.flights ++ [g] } }

/-- A variable command of the Hod is accepted, unless its operation issues on the cycle of a late fault, which cancels it (R270). -/
def State.hodVariable (s : State) (off : Nat) (c : VCmd) : State :=
  if s.cur.hod.deadAt = s.cur.seq.clk + 1 then s else s.acceptVariable 38 off c

/-- The frame of every hd operation: the illegal-bundle checks, then the operation under a true guard (R40, R270). -/
def hodOp (opc : Nat) (o : HdOp) (s : State) (body : State → State) : Host.Outcome State Fault Refusal :=
  let s1 := s.hodIllegal opc
  .next (if guardTrue s.cur o.g then body s1 else s1)

/-- HFSTAT cause 1: the unit is not in a MODE that the operation requires (R270). -/
def State.hodMode (s : State) (opc : Nat) (o : HdOp) (ms : List HodMode) : State :=
  s.hodFault (!ms.contains s.cur.hod.issued.mode) 0x09 1 opc o

/-- The translation of one spill region at HOPEN (R271). -/
def hodRegion (s : State) (pa len target align : Nat) : Xlate :=
  let x := translate (s.part (s.partOf s.issue.brick)) pa len true true (fun k => timedTarget k == (target == 0)) fun k _ => k ≠ target
  if x.cause = 0 && x.addr % align ≠ 0 then { x with cause := 6 } else x

/-- HOPEN in either form (R262, R271); of two regions that fail HODHBM is recorded (log entry 130). -/
def openHod (o : HdOp) (s : State) : State :=
  let x := s.cur
  let cfg := sysGet x 0x04C
  let s1 := s.hodFault (x.hod.issued.mode ≠ .closed || !x.hod.flights.isEmpty) 0x09 1 1 o
  let hgrp := fld cfg.toNat 16 14
  let dunits := fld cfg.toNat 32 16
  let hpa := (sysGet x 0x04D).toNat
  let dpa := (sysGet x 0x04E).toNat
  let xh := if hgrp ≠ 0 then hodRegion s hpa (hgrp * 1507328) 0 1507328 else ⟨0, 0, 0, false, 0⟩
  let xd := if dunits ≠ 0 then hodRegion s dpa (dunits * 11776) 2 1 else ⟨0, 0, 0, false, 0⟩
  let s2 := if xh.cause ≠ 0 then s1.xlateCheck 38 xh hpa else s1.xlateCheck 38 xd dpa
  (s2.hodFly 1 4 o).onCur fun x =>
    { x with
      hod := { x.hod with
        cfg := cfg
        splitTag := o.tag
        hbmBase := xh.addr
        deepBase := xd.addr
        deepPaged := xd.paged
        openUntil := x.seq.clk + 4 } }

/-- HOPEN (R271). -/
def execHopen (o : HdOp) (s : State) : Host.Outcome State Fault Refusal := hodOp 1 o s (openHod o)

/-- HOPEN.CHILD (R271). -/
def execHopenChild (o : HdOp) (s : State) : Host.Outcome State Fault Refusal := hodOp 1 o s (openHod o)

/-- HCLOSE in its checked form (R272). -/
def execHclose (o : HdOp) (s : State) : Host.Outcome State Fault Refusal :=
  hodOp 12 o s fun s =>
    let c := s.cur.hod.issued
    let cause :=
      if c.mode ≠ .root then 1
      else if c.top ≠ 0 || !c.recs.isEmpty then 7
      else if c.lanes.any (· ≠ laneBase) then 8
      else 0
    ((s.hodFault (cause ≠ 0) 0x09 cause 12 o).hodFly 12 4 o).onCur fun x =>
      { x with hod := { x.hod with openUntil := x.seq.clk + 4 } }

/-- HCLOSE.DISCARD (R272). -/
def execHcloseDiscard (o : HdOp) (s : State) : Host.Outcome State Fault Refusal :=
  hodOp 12 o s fun s =>
    ((s.hodFault (s.cur.hod.issued.mode = .sealing) 0x09 1 12 o).hodFly 12 4 o).onCur fun x =>
      { x with hod := { x.hod with openUntil := x.seq.clk + 4 } }

/-- The formats that HPUSH and HPOP take (R269). -/
def hodFormat (fmt : Nat) : Bool := [0x0, 0x1, 0x3, 0x4, 0x5, 0x8].contains fmt

/-- HPUSH (R265, R268, R273). -/
def execHpush (o : HdOp) (s : State) : Host.Outcome State Fault Refusal :=
  hodOp 2 o s fun s =>
    let x := s.cur
    let c := x.hod.issued
    let fmt := resolveFmt x o.fmt
    let lt := tileLines o fmt
    let steps := (tileSize o + c.ell - 1) / c.ell
    let tbl := x.hod.table x.seq.clk o.table
    let s1 := (s.hodMode 2 o [.root, .child]).hodFault (!hodFormat fmt || lt > steps) 0x0E 12 2 o
    let s2 := (s1.hodFault (4096 ≤ c.recs.length) 0x0A 4 2 o).tapCheck 38 17 (.tap o.aw o.lane)
    (s2.hodFly 2 (steps + 6) o fun f =>
      { f with fmt := fmt, freqs := tbl.1, prec := tbl.2, lt := lt, left := lt - 1, lines := [(tap x o.aw o.lane 17).getD 0] }).onCur
      fun x => { x with hod := { x.hod with coderFree := x.seq.clk + steps + 2 } }

/-- The record check of R268: none, or the code and cause of its fault. -/
def recordFault (r : Option HodRec) (want : Nat) (mask : Nat) : Option (Nat × Nat) :=
  match r with
  | none => some (0x08, 3)
  | some r => if r.bits.toNat &&& mask = want then none else some (0x02, 2)

/-- KIND, FORMAT, TABLE, COUNT and TAG of a record. -/
def recMask : Nat := 2 ^ 36 - 1 - 12

/-- HPOP (R268, R274, R282). -/
def execHpop (o : HdOp) (s : State) : Host.Outcome State Fault Refusal :=
  hodOp 3 o s fun s =>
    let x := s.cur
    let c := x.hod.issued
    let fmt := resolveFmt x o.fmt
    let idx := fld (sysGet x 0x04C).toNat 10 6
    let inBlock := c.onBlock
    let kid := if inBlock then c.childOf idx else none
    let ell := match kid with | some k => k.ell | none => c.ell
    let lt := tileLines o fmt
    let steps := (tileSize o + ell - 1) / ell
    let top := if inBlock then kid.bind fun k => k.recs.head? else c.recs.head?
    let want := (recBits 1 false false fmt o.table o.count o.tag 0).toNat
    let flt := recordFault top want recMask
    let tbl := x.hod.table x.seq.clk o.table
    let first := match kid with | some k => k.fresh | none => false
    let s1 := ((s.hodMode 3 o [.root, .child]).hodFault (!hodFormat fmt) 0x0E 12 3 o).hodFault flt.isSome
      (flt.getD (0, 0)).1 (flt.getD (0, 0)).2 3 o
    let s2 := s1.hodFault (first && c.lanes.any (· ≠ laneBase)) 0x09 8 3 o
    let s3 := (List.range lt).foldl (fun s j => s.claimLane 38 o.aw o.lane 17 (steps + 12 + j)) s2
    (s3.hodFly 3 (steps + 12) o fun f =>
      { f with fmt := fmt, freqs := tbl.1, prec := tbl.2, lt := lt, child := if inBlock then some idx else none }).onCur
      fun x => { x with hod := { x.hod with coderFree := x.seq.clk + steps + 2 } }

/-- HBM slots of the region (R283). -/
def Hod.slots (h : Hod) : Nat := 4 * fld h.cfg.toNat 16 14

/-- A stripe of a region: channel number, bank, row and col of HBM slot j of the brick's channel number (R283). -/
def slotPlace (base ch j : Nat) : Place :=
  let g := base / 1507328 + j / 4
  ⟨0, ch, g % 80, g / 80, j % 4⟩

/-- The stripe that holds stack unit u of a brick (R283). -/
def Hod.unitPlace (h : Hod) (b u : Nat) : Place := slotPlace h.hbmBase (b % 768 % 32) (u % max 1 h.slots)

/-- Lines of a unit (R261). -/
def unitLines : Nat := 184

/-- The words of lines, lowest position first, each with the error of its line. -/
def lineWords (ls : List (Line × Bool)) : List (BitVec 16 × Bool) :=
  ls.flatMap fun l => (elems 16 l.1).map fun w => (BitVec.ofNat 16 w, l.2)

/-- The lines of words, a line with a word in error poisoned (R261, R287). -/
def wordLines (ws : List (BitVec 16 × Bool)) : List (Line × Bool) :=
  (List.range ((ws.length + 31) / 32)).map fun i =>
    let l := (ws.drop (32 * i)).take 32
    (ofElems 16 (l.map fun w => w.1.toNat), l.any (·.2))

/-- The 23 blocks of a unit's lines (R261, R283). -/
def unitBlocks (ls : List (Line × Bool)) : List (List (Line × Bool)) :=
  (List.range 23).map fun d => (List.range 8).map fun i => ls.getD (8 * d + i) (0, false)

/-- The address of line i of stack unit u in the deep region (R286). -/
def Hod.deepAddr (h : Hod) (u i : Nat) : Nat := h.deepBase + 11776 * (u % max 1 (fld h.cfg.toNat 32 16)) + 64 * i

/-- A line of the deep region as it lies in second-tier memory. -/
def State.deepLine (s : State) (k : Nat) (h : Hod) (u i : Nat) : Line × Bool :=
  let p := s.variablePlace k h.deepPaged 2 (h.deepAddr u i) false
  if p.1 ≠ 0 || p.2.1 ≠ 2 then (poisonLine, true) else (readLine s.tier2 p.2.2, s.tier2Poison.contains (p.2.2 / 64))

/-- The words of a unit held in HBM or in the deep region, no command issued. -/
def State.heldUnit (s : State) (n u : Nat) : List (BitVec 16 × Bool) :=
  let h := (s.home n).hod
  if u < h.deepUnits then lineWords ((List.range unitLines).map fun i => s.deepLine (s.partOfHome n) h u i)
  else
    let p := h.unitPlace n u
    let ws := lineWords ((List.range 23).flatMap fun d => s.readDataBlock p.ch p.bank p.row p.col d)
    if h.lost.contains u then ws.map fun w => (w.1, true) else ws

/-- The words of the stack from position lo on, n of them, wherever they are held (R278, R280). -/
def State.stackWords (s : State) (b : Nat) (c : HodCore) (lo n : Nat) : List (BitVec 16 × Bool) :=
  let first := lo / unitWords
  let units := (List.range ((lo + n + unitWords - 1) / unitWords - first)).map (first + ·)
  ((units.flatMap fun u =>
    if unitWords * u < c.bot then s.heldUnit b u
    else (List.range unitWords).map fun j => ((c.word (unitWords * u + j)).getD 0, c.marked (unitWords * u + j))).drop
      (lo - unitWords * first)).take n

/-- HMARK (R277). -/
def execHmark (o : HdOp) (s : State) : Host.Outcome State Fault Refusal :=
  hodOp 4 o s fun s =>
    ((s.hodMode 4 o [.root]).hodFault (4096 ≤ s.cur.hod.issued.recs.length) 0x0A 4 4 o).hodFly 4 2 o

/-- HMARK.DROP (R268, R277). -/
def execHmarkDrop (o : HdOp) (s : State) : Host.Outcome State Fault Refusal :=
  hodOp 4 o s fun s =>
    let c := s.cur.hod.issued
    let flt := recordFault c.recs.head? (2 + o.tag * 2 ^ 20) (3 + 0xFFFF * 2 ^ 20)
    let s1 := (s.hodMode 4 o [.root]).hodFault flt.isSome (flt.getD (0, 0)).1 (flt.getD (0, 0)).2 4 o
    (s1.hodFault (c.lanes.any (· ≠ laneBase)) 0x09 8 4 o).hodFly 4 2 o

/-- HCUT; the mark's words and what lies below them in their unit go along with it, wherever they are held, since a spill may take them
before t+2 (R278; log entry 113). -/
def execHcut (o : HdOp) (s : State) : Host.Outcome State Fault Refusal :=
  hodOp 5 o s fun s =>
    let c := s.cur.hod.issued
    let mark := c.recs.find? fun r => r.kind == 2
    let flt := recordFault mark (2 + o.tag * 2 ^ 20) (3 + 0xFFFF * 2 ^ 20)
    let held := match mark with
      | some r =>
        let foot := r.pos / unitWords * unitWords
        s.stackWords s.issue.brick c foot (r.pos + 2 * c.ell - foot)
      | none => []
    ((s.hodMode 5 o [.root]).hodFault flt.isSome (flt.getD (0, 0)).1 (flt.getD (0, 0)).2 5 o).hodFly 5 2 o fun f =>
      { f with held := held }

/-- HSPLIT (R268, R279). -/
def execHsplit (o : HdOp) (s : State) : Host.Outcome State Fault Refusal :=
  hodOp 6 o s fun s =>
    ((s.hodMode 6 o [.root]).hodFault (4096 < s.cur.hod.issued.recs.length + o.count + 2) 0x0A 4 6 o).hodFly 6 2 o

/-- HSEAL: accepted as a variable command with the status word and barrier of its tag field (R280). -/
def execHseal (o : HdOp) (s : State) : Host.Outcome State Fault Refusal :=
  hodOp 7 o s fun s =>
    let vs := o.tag % 64
    ((s.hodMode 7 o [.child]).hodVariable (o.tag / 64 % 32)
      { opc := 7, w0 := 0, w1 := 0, w2 := 0, vs := vs, bar := 0, epoch := 0, writes := false, target := 0, kind := 0, grans := [] }).hodFly 7 2 o

/-- HJOIN: it waits, the brick frozen, until every child has arrived or failed (R268, R281). -/
def execHjoin (o : HdOp) (s : State) : Host.Outcome State Fault Refusal :=
  hodOp 8 o s fun s =>
    let c := s.cur.hod.issued
    let kids := c.children.filter fun k => some k.hdr = c.block.map (·.pos)
    let flt := recordFault c.recs.head? (3 + o.tag * 2 ^ 20) (3 + 0xFFFF * 2 ^ 20)
    let s1 := (s.hodMode 8 o [.splitWait]).hodFault flt.isSome (flt.getD (0, 0)).1 (flt.getD (0, 0)).2 8 o
    if c.mode ≠ .splitWait || flt.isSome then s1
    else if kids.any (·.state = 0) then
      if 2 ^ 20 ≤ s.cur.hod.joinWait then s1.push [.event (.hjoinTimeout s.issue.brick)]
      else { s1 with issue := { s1.issue with wait := true, joins := true } }
    else if kids.any (·.state = 2) then s1.hodFault true 0x09 10 8 o
    else (s1.hodFly 8 0 o).onCur fun x => { x with hod := retireHod { x.hod with joinWait := 0 } x.seq.clk }

/-- HJOIN_TIMEOUT: the wait has passed 2^20 cycles (R281). The trap that it brings ends the wait. -/
def execHjoinTimeout (b : Nat) (s : State) : Host.Outcome State Fault Refusal :=
  let tag := match (s.brick b).hod.issued.block with | some h => h.tag | none => 0
  .next (s.foundAt 0x11 38 [(0x04F, hfWord s 11 false 8 tag)])

/-- HTBL; where a lane is empty there are no frequencies to check (R275). -/
def execHtbl (o : HdOp) (s : State) : Host.Outcome State Fault Refusal :=
  hodOp 9 o s fun s =>
    let x := s.cur
    let lines := (List.range 8).map fun q => tap x o.aw (o.lane + q) 17
    let freqs := lines.flatMap fun l => elems 16 (l.getD 0)
    let s1 := (List.range 8).foldl (fun s q => s.tapCheck 38 17 (.tap o.aw (o.lane + q))) s
    let bad := lines.all Option.isSome && (freqs.any (fun f => f > 2 ^ o.fmt) || freqs.sum ≠ 2 ^ o.fmt)
    (s1.hodFault bad 0x0E 12 9 o).hodFly 9 2 o fun f => { f with freqs := freqs, prec := o.fmt }

/-- MODE as HSTAT numbers it (R276). -/
def HodMode.code : HodMode → Nat
  | .closed => 0
  | .root => 1
  | .splitWait => 2
  | .child => 3
  | .sealing => 4

/-- The line of HSTAT (R276). -/
def hstatLine (h : Hod) (clk : Nat) : Line :=
  let g := h.seen clk
  let c := g.core
  BitVec.ofNat 512 (c.top % 2 ^ 64 + c.bot % 2 ^ 64 * 2 ^ 64 + c.recs.length * 2 ^ 128 + (c.ell - 1) * 2 ^ 144 +
    HodMode.code c.mode * 2 ^ 152 + g.hbmUnits * 2 ^ 160 + g.deepUnits * 2 ^ 192 +
    (match c.recs with | r :: _ => r.bits.toNat | [] => 0) * 2 ^ 224)

/-- HSTAT (R276). -/
def execHstat (o : HdOp) (s : State) : Host.Outcome State Fault Refusal :=
  hodOp 10 o s fun s =>
    let x := s.cur
    let s1 := (s.claimLane 38 o.aw o.lane 17 2).hodFly 10 2 o
    if x.hod.deadAt = x.seq.clk + 1 then s1
    else s1.addFlight (s.plainFlight 38 2 (.drive o.aw o.lane 17) (hstatLine x.hod x.seq.clk))

/-- The address in the deep region of line i of an HFLUSH (R286). -/
def Hod.flushAddr (h : Hod) (f : HodFlush) (i : Nat) : Nat := h.deepAddr (f.first + i / unitLines) (i % unitLines)

/-- The first byte of an HFLUSH whose variable virtual address leaves its space (R122). -/
def Hod.flushOut (h : Hod) (f : HodFlush) : Option Nat :=
  if h.deepPaged then
    ((List.range (unitLines * f.units)).find? fun i => 2 ^ 48 < h.flushAddr f i + 64).map fun i =>
      64 * i + (2 ^ 48 - h.flushAddr f i)
  else none

/-- The units that an HFLUSH may take are there, and free space for them, a window under way counted (R286). -/
def Hod.flushRoom (h : Hod) (up : Bool) (k : Nat) : Bool :=
  if up then k ≤ h.deepUnits && h.hbmUnits + h.moving .spill + k ≤ h.slots
  else k + h.moving .refill ≤ h.hbmUnits && h.deepUnits + k ≤ fld h.cfg.toNat 32 16

/-- HFLUSH accepted as a variable command; too many units or one outstanding ends it at once with code 4 (R286), and an address
beyond the variable address space with code 10 (R122). The units are those that show: what a cut has freed counts no more, behind an
earlier pop too (R270, R276, R278). It asks for no MODE: a Hod that holds nothing has no unit to move. -/
def flushHod (up : Bool) (o : HdOp) (s : State) : State :=
  let h := s.cur.hod.seen s.cur.seq.clk
  let k := o.count + 1
  let vs := o.tag % 64
  let f : HodFlush := ⟨up, k, vs, if up then h.deepUnits - k else h.deepUnits, k⟩
  let s1 := s.hodVariable (o.tag / 64 % 32)
    { opc := 11, w0 := 0, w1 := 0, w2 := 0, vs := vs, bar := 0, epoch := 0, writes := false, target := h.deepBase, kind := 2,
      grans := [], side := up.toNat, paged := h.deepPaged, size := 11776 * k }
  if s.cur.hod.deadAt = s.cur.seq.clk + 1 then s1
  else if h.flush.isSome || !h.flushRoom up k then s1.onCur fun x => endVariable x vs 4
  else match h.flushOut f with
    | some off => s1.onCur fun x => endVariableAt x vs 10 off
    | none => s1.onCur fun x => { x with hod := { x.hod with flush := some f, staged := [], stagedBad := [] } }

/-- HFLUSH.DOWN (R286). -/
def execHflushDown (o : HdOp) (s : State) : Host.Outcome State Fault Refusal := hodOp 11 o s (flushHod false o)

/-- HFLUSH.UP (R286). -/
def execHflushUp (o : HdOp) (s : State) : Host.Outcome State Fault Refusal := hodOp 11 o s (flushHod true o)

/-- The record cycle of a push in flight, found by the sequencer as the brick's cycle begins (R273). -/
def execHpushRecord (b : Nat) (s : State) : Host.Outcome State Fault Refusal := .next (s.hodDue b)

/-- The commit of a pop in flight, found by the sequencer as the brick's cycle begins (R274). -/
def execHpopCommit (b : Nat) (s : State) : Host.Outcome State Fault Refusal := .next (s.hodDue b)

/-- A loss event stops every window, and the units in HBM are lost (R287). -/
def loseHod (x : Brick) : Brick :=
  { x with
    hod := { x.hod with
      win := x.hod.win.map fun w => { w with stopped := true }
      lost := (List.range x.hod.hbmUnits).map (x.hod.deepUnits + ·) } }

end Sys2Proof.Machine
end

