-- ==== Sys2Proof/Machine/Copy.lean ====
section
/-! DEFINITION. The copy engine: timed commands and their start, CPY, CPYM and CPYD, the Yard's banks, HBM takes and
write-buffer fills, compressed blocks (R134 to R151). -/

namespace Sys2Proof.Machine

/-- The register n places after the one that field a names (R139). -/
def enWord (x : Brick) (o : EnOp) (n : Nat) : Word := readS x (o.a.index + n)

/-- The start P (R139). -/
def enStart (x : Brick) (o : EnOp) : Nat := ((scalarVal x o.b).toNat % 2 ^ 32 + o.imm) % 2 ^ 32

/-- An error in a register that the command reads (R168). -/
def enUe (x : Brick) (o : EnOp) (n : Nat) : Bool :=
  scalarUe x o.b || (List.range n).any fun i => x.sc.ue.contains (o.a.index + i)

/-- The word of CPFSTAT (R145). -/
def cpfWord (s : State) (cause start : Nat) : Word :=
  BitVec.ofNat 64 (1 + cause * 2 + start % 2 ^ 32 * 2 ^ 8 + s.ct % 2 ^ 24 * 2 ^ 40)

/-- A command of the engine before its effects are scheduled. -/
def Held.fresh (opc : Nat) (w0 w1 w2 : Word) (pc issue : Nat) : Held :=
  { opc := opc, w0 := w0, w1 := w1, w2 := w2, p := 0, start := 0, occ := 0, fin := 0, got := [], stop := none, cancelled := false,
    course := 0, done := false, nak := false, target := 0, part := 0, ev := .none, evLines := 0, evCount := 0,
    evGroup := none, snap := none, sums := [], pc := pc, issue := issue }

/-- Plan cycles from now to a start, modulo 2^32 (R139). -/
def untilStart (x : Brick) (start : Nat) : Nat := (start + 2 ^ 32 - x.seq.pt % 2 ^ 32) % 2 ^ 32

/-- A timed command is held by the engine: causes 1 to 3 of R145. `occ` and `fin` are the last occupied cycle and the last
effect, counted from the start (R142, R310, R330, R342). -/
def State.admitTimed (s : State) (o : EnOp) (occ fin : Nat) (h : Held) : State :=
  let x := s.cur
  let start := enStart x o
  let d := untilStart x start
  let p := x.seq.clk + d
  let miss (s : State) (c : Bool) (cause : Nat) := s.foundIf c 0x04 39 [(0x047, cpfWord s cause start)]
  let late := d < 2 || 16777215 < d
  let full := 16 ≤ x.held.length
  let meets := x.held.any fun g => g.p ≤ p + occ && p ≤ g.occ
  let s1 := miss (miss (miss s late 1) (!late && full) 2) (!late && !full && meets) 3
  s1.onCur fun x => { x with held := x.held ++ [{ h with p := p, start := start, occ := p + occ, fin := p + fin }] }

/-- The plan cycle whose late effects are being performed. -/
def Brick.now (x : Brick) : Nat := x.seq.clk - 1

/-- Fields of a shape word (R141). -/
def shapeSk (w : Word) : Nat := fld w.toNat 0 4
def shapeDk (w : Word) : Nat := fld w.toNat 4 4
def shapeLen (w : Word) : Nat := fld w.toNat 8 16 + 1
def shapeN (w : Word) : Nat := fld w.toNat 24 4 + 1
def shapeSc (w : Word) : Nat := fld w.toNat 28 4
def shapeClen (w : Word) : Nat := fld w.toNat 32 15 + 1
def shapeDec (w : Word) : Bool := w.getLsbD 47
def shapeTag (w : Word) : Nat := fld w.toNat 48 16

/-- A ring address word: [20:0] with the low bits zero, n lines within 2 MiB (R140, R141). -/
def ringWord (w : Word) (n : Nat) : Bool := w.toNat % 64 == 0 && w.toNat + 64 * n ≤ 2 ^ 21

/-- A source word is admitted for its kind (R140). -/
def sourceWord (sk : Nat) (w : Word) (n : Nat) : Bool :=
  match sk with
  | 0 => ringWord w n
  | 1 => w.toNat % 64 == 0
  | _ => fld w.toNat 11 21 == 0 && fld w.toNat 0 10 ≤ 767

/-- A destination word is admitted for its kind (R140). -/
def destWord (dk : Nat) (w : Word) (n : Nat) : Bool :=
  match dk with
  | 0 => ringWord w n
  | 1 => w.toNat % 64 == 0
  | 2 => fld w.toNat 16 48 == 0 && fld w.toNat 0 10 ≤ 767
  | _ => fld w.toNat 19 45 == 0

/-- The shape of CPY and CPYM is admitted (R141). -/
def copyShape (multicast : Bool) (sh : Word) : Bool :=
  let sk := shapeSk sh
  let dk := shapeDk sh
  sh.toNat / 2 ^ 24 == 0 && shapeLen sh ≤ 32768 && sk ≤ 2 && (if multicast then dk == 3 else dk ≤ 2) &&
    (shapeLen sh == 8 || (sk != 2 && dk != 2))

/-- The shape of CPYD is admitted (R141). -/
def decompressShape (sh : Word) : Bool :=
  shapeSk sh == 1 && shapeDk sh == 0 && shapeLen sh ≤ 32768 && shapeSc sh ≤ 5 && 8 * 2 ^ shapeSc sh ≤ shapeLen sh && !shapeDec sh && shapeTag sh == 0

/-- The die of a brick (R16). -/
def dieOf (b : Nat) : Nat := b / 24

/-- Ls and the offset of the read from the beat, of a line at an address (R143). -/
def sourceTiming (b sk addr : Nat) : Nat × Nat :=
  match sk with
  | 0 => (3, 1)
  | 1 => if addr / 2 ^ 26 = dieOf b then (8, 2) else (20, 8)
  | _ => (2, 0)

/-- Ld of a line at an address (R143). -/
def destTiming (b dk addr : Nat) : Nat :=
  match dk with
  | 0 => 2
  | 1 => if addr / 2 ^ 26 = dieOf b then 4 else 12
  | 2 => 4
  | _ => 6

/-- The translation of a partition address of a copy: it must reach the Yard (R118, R141). -/
def copyXlate (s : State) (w : Word) (n : Nat) (wr : Bool) : Xlate :=
  translate (s.part (s.partOf s.issue.brick)) w.toNat (64 * n) (!wr) wr timedTarget fun k _ => k == 0

/-- MCWIN of a window of a die (R137). -/
def State.window (s : State) (die w : Nat) : Word := tget 0 s.mcwin (die * 16 + w)

/-- The source timing of line k of a copy, and its Ld: each line has that of its own address, in an extent over two dies too (R143;
log entry 134). -/
def Held.readTime (h : Held) (b k : Nat) : Nat × Nat := sourceTiming b (shapeSk h.w2) (h.target + 64 * k)
def Held.writeTime (h : Held) (b k : Nat) : Nat := destTiming b (shapeDk h.w2) (h.part + 64 * k)

/-- The last cycle of f over the beats of n lines, counted from the start. -/
def lastOf (n : Nat) (f : Nat → Nat) : Nat := (List.range n).foldl (fun m k => max m (k / 2 + f k)) 0

/-- CPY and CPYM; their words are checked whatever the guard reads, and of two translations that fail the source's is recorded (R40,
R139 to R145; log entry 130). A window that fails records entry 0 and its address word (log entry 147). -/
def copyCommand (opc : Nat) (o : EnOp) (s : State) : State :=
  let x := s.cur
  let b := s.issue.brick
  let w0 := enWord x o 0
  let w1 := enWord x o 1
  let sh := enWord x o 2
  let n := shapeLen sh
  let sk := shapeSk sh
  let dk := shapeDk sh
  let ok := copyShape (opc == 0x11) sh && sourceWord sk w0 n && destWord dk w1 n
  let s0 := s.foundIf (guardTrue x o.g && enUe x o 3) 0x0B 39
  if !ok then s0.foundAt 0x01 39
  else if !guardTrue x o.g then s
  else
    let none' : Xlate := ⟨0, 0, 0, false, 0⟩
    let xs := if sk = 1 then copyXlate s w0 n false else none'
    let xd := if dk = 1 then copyXlate s w1 n true else none'
    let win := s.window (dieOf b) (fld w1.toNat 0 4)
    let owned := win.getLsbD 24 && fld win.toNat 25 3 == s.partOf b
    let xw : Xlate := if dk ≠ 3 then none'
      else if !owned then ⟨1, 0, 0, false, 0⟩
      else if n > fld win.toNat 48 15 + 1 - fld w1.toNat 4 15 then ⟨5, 0, 0, false, 0⟩
      else none'
    let s1 := if xs.cause ≠ 0 then s0.xlateCheck 39 xs w0.toNat
      else if xd.cause ≠ 0 then s0.xlateCheck 39 xd w1.toNat
      else s0.xlateCheck 39 xw w1.toNat
    let h := { Held.fresh opc w0 w1 sh s.issue.pc s.issue.issue with
      target := if sk = 1 then xs.addr else w0.toNat, part := if dk = 1 then xd.addr else w1.toNat }
    s1.admitTimed o ((n - 1) / 2) (lastOf n fun k => (h.readTime b k).1 + h.writeTime b k) h

/-- CPY (R139). -/
def execCpy (o : EnOp) (s : State) : Host.Outcome State Fault Refusal := .next (copyCommand 0x10 o s)

/-- CPYM (R138). -/
def execCpym (o : EnOp) (s : State) : Host.Outcome State Fault Refusal := .next (copyCommand 0x11 o s)

/-- T of a block's decoding (R150). -/
def decodeTime (sh : Word) : Nat := ((512 * 2 ^ shapeSc sh + shapeN sh - 1) / shapeN sh + 7) / 8 + 4

/-- W0 of a CPYD, counted from its start: T and two cycles after the last fetched line (R150). -/
def decodeW0 (b src : Nat) (sh : Word) : Nat :=
  lastOf (shapeClen sh) (fun k => (sourceTiming b 1 (src + 64 * k)).1) + decodeTime sh + 2

/-- CPYD; its words are checked whatever the guard reads (R40, R150). -/
def execCpyd (o : EnOp) (s : State) : Host.Outcome State Fault Refusal :=
  let x := s.cur
  let b := s.issue.brick
  let w0 := enWord x o 0
  let w1 := enWord x o 1
  let sh := enWord x o 2
  let n := shapeLen sh
  let s0 := s.foundIf (guardTrue x o.g && enUe x o 3) 0x0B 39
  .next (if !(decompressShape sh && sourceWord 1 w0 (shapeClen sh) && ringWord w1 n) then s0.foundAt 0x01 39
    else if !guardTrue x o.g then s
    else
      let xs := copyXlate s w0 n false
      let s1 := s0.xlateCheck 39 xs w0.toNat
      let w := decodeW0 b xs.addr sh
      s1.admitTimed o (w + (n - 1) / 2 - 2) (w + (n - 1) / 2)
        { Held.fresh 0x12 w0 w1 sh s.issue.pc s.issue.issue with target := xs.addr, part := w1.toNat })

/-- One token after another of a substream (R149): the output newest first, its length, and the code and offset of the first
failure. -/
def decodeSub : Nat → List Byte → Nat → Nat → Nat → List Byte → Nat → List Byte × Option (Nat × Nat)
  | 0, _, _, _, _, out, _ => (out, none)
  | fuel + 1, bs, pos, fin, share, out, len =>
    if fin ≤ pos then (out, if len < share then some (5, fin) else none)
    else match bs with
      | [] => (out, some (6, pos))
      | t :: rest =>
        if t.toNat < 128 then
          let n := t.toNat + 1
          if pos + 1 + n > fin then (out, some (6, pos))
          else if len + n > share then (out, some (4, pos))
          else decodeSub fuel (rest.drop n) (pos + 1 + n) fin share ((rest.take n).reverse ++ out) (len + n)
        else
          let n := t.toNat % 128 + 3
          if pos + 2 > fin then (out, some (6, pos))
          else if len + n > share then (out, some (4, pos))
          else decodeSub fuel (rest.drop 1) (pos + 2) fin share (List.replicate n (rest.headD 0) ++ out) (len + n)

/-- A decoded block: its bytes, and the code, substream and offset of a malformed one, with the first byte that is not output
(R148, R149, R151). -/
structure Block where
  bytes : List Byte
  code : Nat
  sub : Nat
  off : Nat
  bad : Nat
  deriving DecidableEq, Repr

/-- Decode a compressed block declared with n substreams, size class sc and clen lines; the codes 1 to 3 name substream 0
(R148 to R151; log entry 160). -/
def decodeBlock (src : List Byte) (n sc clen : Nat) : Block :=
  let hdr := bytesWord (src.take 32)
  let len (j : Nat) := fld hdr (16 + 15 * j) 15
  let size := 512 * 2 ^ sc
  let zeros := List.replicate size (0 : Byte)
  if fld hdr 8 8 ≠ 0 || fld hdr 4 4 > 5 then ⟨zeros, 1, 0, 0, 0⟩
  else if fld hdr 0 4 + 1 ≠ n || fld hdr 4 4 ≠ sc then ⟨zeros, 2, 0, 0, 0⟩
  else if (List.range 16).any (fun j => n ≤ j && len j ≠ 0) || 32 + ((List.range n).map len).sum > 64 * clen then
    ⟨zeros, 3, 0, 0, 0⟩
  else
    (List.range n).foldl (fun (acc : Block) j =>
      let start := 32 + ((List.range j).map len).sum
      let lo := j * size / n
      let share := (j + 1) * size / n - lo
      let r := decodeSub (len j + 1) (src.drop start) start (start + len j) share [] 0
      let out := (r.1.reverse ++ List.replicate share (0 : Byte)).take share
      match r.2 with
      | some e => if acc.code = 0 then ⟨acc.bytes ++ out, e.1, j, e.2, lo⟩ else { acc with bytes := acc.bytes ++ out }
      | none => { acc with bytes := acc.bytes ++ out }) ⟨[], 0, 0, 0, size⟩

/-- The lines that a CPYD writes, poisoned from the first line of the failing share (R150, R151). -/
def blockLines (d : Block) (n : Nat) : List (Line × Bool) :=
  (List.range n).map fun k =>
    if d.code ≠ 0 && (d.code ≤ 3 || d.bad / 64 ≤ k) then (poisonLine, true)
    else (bytesLine (((d.bytes.drop (64 * k)).take 64 ++ List.replicate 64 0).take 64), false)

/-- The record of a malformed block (R151). -/
def blockRec (d : Block) (pc issue : Nat) : BitVec 128 :=
  pollenRec 0x21 39 pc issue .none (BitVec.ofNat 64 (d.code + d.sub * 2 ^ 4 + d.off % 2 ^ 32 * 2 ^ 32))

/-- The beat of a line, counted as a plan cycle (R142). -/
def Held.beat (h : Held) (k : Nat) : Nat := h.p + k / 2

/-- Lines that the engine reads for a copy. -/
def Held.sourceLines (h : Held) : Nat := if h.opc = 0x12 then shapeClen h.w2 else shapeLen h.w2

/-- CPY, CPYM and CPYD. -/
def Held.isCopy (h : Held) : Bool := h.opc == 0x10 || h.opc == 0x11 || h.opc == 0x12

/-- Update the held command that starts at p. -/
def onHeld (x : Brick) (p : Nat) (f : Held → Held) : Brick :=
  { x with held := x.held.map fun h => if h.p = p then f h else h }

/-- A late fault of a timed command; it performs nothing further, on this cycle neither (R145, R347; log entry 146). -/
def State.failHeld (s : State) (b : Nat) (h : Held) (code : Nat) (regs : List (Nat × Word)) : State :=
  (s.onBrick b fun x => onHeld x h.p fun h => { h with cancelled := true }).lateOf b code 39 h.pc h.issue regs

/-- The same of a task that may have parked (R388). -/
def State.failHome (s : State) (n : Nat) (h : Held) (code : Nat) (regs : List (Nat × Word)) : State :=
  (s.onHome n fun x => onHeld x h.p fun h => { h with cancelled := true }).lateHome n code 39 h.pc h.issue regs

/-- The Yard accesses of a copy on a plan cycle: line, address, 1 for a write (R143). -/
def yardAccesses (b : Nat) (h : Held) (t : Nat) : List (Nat × Nat × Nat) :=
  if !h.isCopy || h.cancelled then []
  else
    let live (k : Nat) : Bool := match h.stop with | some e => decide (h.beat k + (h.readTime b k).1 ≤ e) | none => true
    let reads := if shapeSk h.w2 = 1 then
        ((List.range h.sourceLines).filter fun k => h.beat k + (h.readTime b k).2 = t && live k).map fun k => (k, h.target + 64 * k, 0)
      else []
    let writes := if h.opc = 0x10 && shapeDk h.w2 = 1 then
        (h.got.filter fun g => g.at' + h.writeTime b g.k = t && live g.k).map fun g => (g.k, h.part + 64 * g.k, 1)
      else []
    reads ++ writes

/-- The accesses that the banks refuse: each performs the first two in source order, a die's own bricks, then the variable engines,
then the others (R134, R135); a brick's own accesses stand in the order of its held commands, reads before writes (log entry
133). `vars` are the lines of each piece of a variable transfer; the answer says which pieces find
all their banks free (log entries 33, 162). -/
def State.yardArbitrate (s : State) (vars : List (List Nat)) : State × List Bool :=
  let all := s.ran.flatMap fun b =>
    let x := s.brick b
    x.held.flatMap fun h => (yardAccesses b h x.now).map fun a => (b, h.p, a.1, a.2.1, a.2.2)
  let mine := all.filter fun a => a.2.2.2.1 / 2 ^ 26 = dieOf a.1
  let others := all.filter fun a => a.2.2.2.1 / 2 ^ 26 ≠ dieOf a.1
  let bank (addr : Nat) := addr / 2 ^ 26 * 32 + addr / 64 % 32
  let take (acc : Table Nat × List (Nat × Nat × Nat × Nat)) (a : Nat × Nat × Nat × Nat × Nat) :
      Table Nat × List (Nat × Nat × Nat × Nat) :=
    let k := bank a.2.2.2.1
    let n := tget 0 acc.1 k
    (tput 0 acc.1 k (n + 1), if 2 ≤ n then acc.2 ++ [(a.1, a.2.1, a.2.2.1, a.2.2.2.2)] else acc.2)
  let own := mine.foldl take ([], [])
  let pieces := vars.foldl (fun (acc : Table Nat × List Bool) ls =>
    let used := ls.foldl (fun t a => tput 0 t (bank a) (tget 0 t (bank a) + 1)) acc.1
    let fits := ls.all fun a => decide (tget 0 used (bank a) ≤ 2)
    (if fits then used else acc.1, acc.2 ++ [fits])) (own.1, [])
  let r := others.foldl take (pieces.1, own.2)
  ({ s with yardRefused := r.2 }, pieces.2)

/-- The block that an RD or RDX of a cycle returned, while it is held (R89, R147). -/
def State.returned (s : State) (ch cr : Nat) (rdx : Bool) : Option RetBlock :=
  (s.channel ch).ret.find? fun r => r.issued % 2 ^ 32 == cr && r.rdx == rdx && r.from' ≤ s.ct && s.ct ≤ r.from' + 63

/-- A line reaches the engine (R143). -/
def gotLine (x : Brick) (p k : Nat) (d : Line) (psn : Bool) (at' : Nat) : Brick :=
  onHeld x p fun h => { h with got := h.got ++ [⟨k, d, psn, at'⟩] }

/-- The reads of one copy on this plan cycle (R143, R147). -/
def State.copyReads (s : State) (b : Nat) (h : Held) : State :=
  let t := (s.brick b).now
  let sk := shapeSk h.w2
  ((List.range h.sourceLines).filter fun k => h.beat k + (h.readTime b k).2 = t).foldl (fun s k =>
    let h := ((s.brick b).held.find? fun g => g.p == h.p).getD h
    let e := h.beat k + (h.readTime b k).1
    if h.cancelled || (match h.stop with | some c => decide (c < e) | none => false) then s
    else match sk with
      | 0 =>
        let r := s.ringRead b (h.target + 64 * k) 64
        r.2.2.onBrick b fun x => gotLine x h.p k (if r.2.1 then poisonLine else bytesLine r.1) r.2.1 e
      | 1 =>
        if s.yardRefused.contains (b, h.p, k, 0) then s.failHeld b h 0x04 [(0x047, cpfWord s 6 h.start)]
        else
          let r := s.yardRead (h.target + 64 * k)
          r.2.onBrick b fun x => gotLine x h.p k r.1.1 r.1.2 e
      | _ =>
        match s.returned (fld h.w0.toNat 0 10) (fld h.w0.toNat 32 32) (h.w0.getLsbD 10) with
        | some r =>
          let l := r.lines.getD k (0, false)
          s.onBrick b fun x => gotLine x h.p k l.1 l.2 e
        | none => s.failHeld b h 0x04 [(0x047, cpfWord s 4 h.start)]) s

/-- The first poisoned line of a copy reaches the engine: a late fault, and the lines after it are dropped; a write-buffer
entry takes poison without a fault (R136). -/
def State.copyPoison (s : State) (b : Nat) (h : Held) : State :=
  let t := (s.brick b).now
  if h.cancelled || h.stop.isSome || shapeDk h.w2 = 2 || !(h.got.any fun g => g.poison && g.at' = t) then s
  else if h.opc = 0x12 then s.failHeld b h 0x0B []
  else
    (s.onBrick b fun x => onHeld x h.p fun h =>
      { h with stop := some t, fin := (h.got.filter fun g => g.at' ≤ t).foldl (fun m g => max m (g.at' + h.writeTime b g.k)) t }).lateOf b 0x0B 39 h.pc h.issue []

/-- A line that performs is the last of a fill's eight: the lines of an extent over two dies may come out of order (R147; log entry 143). -/
def Held.fills (h : Held) (b : Nat) (g : Fetched) : Bool :=
  let due (q : Fetched) : Nat := q.at' + h.writeTime b q.k
  h.got.length == 8 && (h.got.all fun q => decide (due q ≤ due g)) &&
    ((h.got.filter fun q => due q == due g).getLast?.map (·.k)) == some g.k

/-- A line of a copy performs at its destination; a multicast line past the ring's last goes on at its first (R138, R143, R144, R147; log
entries 143 and 144). -/
def State.copyWrite (s : State) (b : Nat) (h : Held) (g : Fetched) : State :=
  match shapeDk h.w2 with
  | 0 => s.onBrick b fun x => { x with ring := x.ring.writeLine (h.part / 64 + g.k) g.data g.poison }
  | 1 =>
    if s.yardRefused.contains (b, h.p, g.k, 1) then s.failHeld b h 0x04 [(0x047, cpfWord s 6 h.start)]
    else s.yardWrite (h.part + 64 * g.k) g.data g.poison
  | 2 =>
    let ch := fld h.w1.toNat 0 10
    let e := fld h.w1.toNat 10 6
    let w := tget ⟨List.replicate 8 (0, false), false⟩ (s.channel ch).wbuf e
    if w.full then s.failHeld b h 0x04 [(0x047, cpfWord s 5 h.start)]
    else s.onChannel ch fun c =>
      { c with wbuf := tins c.wbuf e { lines := w.lines.set g.k (g.data, g.poison), full := h.fills b g } }
  | _ =>
    let win := s.window (dieOf b) (fld h.w1.toNat 0 4)
    let line := fld win.toNat 32 15 + fld h.w1.toNat 4 15 + g.k
    (List.range 24).foldl (fun s i =>
      if win.getLsbD i then
        s.onBrick (24 * dieOf b + i) fun x => { x with ring := x.ring.writeLine (line % 32768) g.data g.poison }
      else s) s

/-- The lines of a CPY or CPYM whose cycle this is (R143; log entry 146). -/
def State.copyWrites (s : State) (b : Nat) (h : Held) : State :=
  let t := (s.brick b).now
  (h.got.filter fun g => g.at' + h.writeTime b g.k = t).foldl (fun s g =>
    let h := ((s.brick b).held.find? fun q => q.p == h.p).getD h
    if h.cancelled || (match h.stop with | some c => decide (c < g.at') | none => false) then s else s.copyWrite b h g) s

/-- The lines of a CPYD whose cycle this is, from the block's lines by their numbers; its record at W0 (R150, R151). -/
def State.decompressWrites (s : State) (b : Nat) (h : Held) : State :=
  let t := (s.brick b).now
  let w0 := h.p + decodeW0 b h.target h.w2
  if h.cancelled || t < w0 then s
  else
    let src := (List.range (shapeClen h.w2)).filterMap fun k => (h.got.find? fun g => g.k == k).map (·.data)
    let d := decodeBlock (src.flatMap lineBytes) (shapeN h.w2) (shapeSc h.w2) (shapeClen h.w2)
    let ls := blockLines d (shapeLen h.w2)
    let s1 := if t = w0 && d.code ≠ 0 then s.pollen b 39 (blockRec d h.pc h.issue) else s
    ((List.range (shapeLen h.w2)).filter fun k => w0 + k / 2 = t).foldl (fun s k =>
      let l := ls.getD k (0, false)
      s.onBrick b fun x => { x with ring := x.ring.writeLine (h.part / 64 + k) l.1 l.2 }) s1

end Sys2Proof.Machine
end

