-- ==== Sys2Proof/Machine/Matrix.lean ====
section
/-! DEFINITION. The matrix engine: operand memory, the array operations, the accumulator ports, busy windows, events and
poison (R231, R232, R238 to R256). -/

namespace Sys2Proof.Machine

/-- The word that poison writes (R252). -/
def poisonWord : BitVec 32 := 0xFFC00BAD#32

/-- The busy windows of R249. -/
def wInFlight : Nat := 0
def wDraining : Nat := 1
def wPending : Nat := 2
def wRead : Nat := 3
def wFilling : Nat := 4

/-- A window of one of the kinds is open on a tile or slot at this plan count (R249). -/
def busy (x : Brick) (kinds : List Nat) (i : Nat) : Bool :=
  x.mx.windows.any fun w => kinds.contains w.kind && w.index == i && x.seq.clk ≤ w.last

/-- Open a window of n cycles from now on each tile or slot (R249). -/
def openWindows (x : Brick) (kind : Nat) (is : List Nat) (n : Nat) : Brick :=
  { x with mx := { x.mx with windows := x.mx.windows ++ is.map fun i => ⟨kind, i, x.seq.clk + n - 1⟩ } }

/-- The word of MXFSTAT (R250): cause, unit and index. -/
def mxfWord (s : State) (cause unit index : Nat) : Word :=
  BitVec.ofNat 64 (1 + cause * 2 + unit * 2 ^ 4 + index * 2 ^ 6 + s.ct32 * 2 ^ 32)

/-- Tile busy on the first of some tiles or slots that meets a condition (R239, R249). -/
def State.mxCheck (s : State) (slot cause unit : Nat) (is : List Nat) (bad : Nat → Bool) : State :=
  match is.find? bad with
  | some i => s.foundAt 0x03 slot [(0x04A, mxfWord s cause unit i)]
  | none => s

/-- The tiles of an accumulator descriptor in a format: a pair for FP64 (R241). -/
def accTiles (fmt i : Nat) : List Nat := if fmt = 2 then [i, (i + 1) % 16] else [i]

/-- The slots of a group (R238). -/
def omSlots (fmt i : Nat) : List Nat := (List.range (omGroup fmt)).map fun m => (i + m) % 16

/-- Interval and latency of a product in a format (R69). -/
def mmaInterval (fmt : Nat) : Nat := match fmt with | 0 => 256 | 1 => 64 | 2 => 1024 | _ => 16
def mmaLatency (fmt : Nat) : Nat := mmaInterval fmt + 12

/-- Bytes of a group as one number, group byte 0 lowest (R238). -/
def groupNat (x : Brick) (fmt i : Nat) : Nat := bytesWord (readBytes x.mx.om (8192 * i) (8192 * omGroup fmt))

/-- Element (r, c) of a tile in a format, a stored index other than k giving the scale of an LNS6 element: its value bits with
the scale byte above them (R238). -/
def tileElem (fmt n r c k other : Nat) : Nat :=
  match fmt with
  | 0 => fld n (8 * (256 * r + 4 * c)) 32
  | 1 => fld n (8 * (128 * r + 2 * c)) 16
  | 2 => fld n (8 * (512 * r + 8 * c)) 64
  | _ => fld n (8 * (64 * r + c)) 6 + 256 * fld n (8 * (4096 + 2 * other + k / 32)) 8

/-- R232: an LNS6 product with the scales of its blocks; NaR and a scale of 0xFF give a NaN. -/
def lnsProduct (a b : Nat) : FVal :=
  let ea := a % 32
  let eb := b % 32
  let sa := a / 32 % 2 == 1
  let sb := b / 32 % 2 == 1
  let ka := a / 256 % 256
  let kb := b / 256 % 256
  if ka = 255 || kb = 255 || (ea = 0 && sa) || (eb = 0 && sb) then .nan false
  else if ea = 0 || eb = 0 then .fin false 0 0
  else
    let u := ea + eb
    .fin (sa != sb) (lnsFixed (u % 4)) ((u / 4 : Nat) - 23 + ((ka : Int) - 127) + ((kb : Int) - 127))

/-- A product of two elements in a format (R231, R232). -/
def mxProduct (fmt a b : Nat) : FVal :=
  if fmt = 3 then lnsProduct a b else (mulVals ((binFmt fmt).unpack a) ((binFmt fmt).unpack b)).1

/-- The format an accumulator holds (R241). -/
def accFmt (fmt : Nat) : BinFmt := if fmt = 2 then f64 else f32

/-- R231: groups of four products, each summed exactly and rounded once into the accumulator. A NaN group is invalid. -/
def accumulate (fmt : Nat) : Nat → List Nat → List Nat → Nat → Events → Nat × Events
  | 0, _, _, acc, ev => (acc, ev)
  | n + 1, xs, ys, acc, ev =>
    let g := sumVals (List.zipWith (mxProduct fmt) (xs.take 4) (ys.take 4))
    let r := sumVals [(accFmt fmt).unpack acc, g.1]
    let p := (accFmt fmt).pack false r.1 r.2
    accumulate fmt n (xs.drop 4) (ys.drop 4) p.1 ((ev.or p.2).or (if g.1.isNan then .invalid else .none))

/-- The words of a tile, row by row (R241). -/
def tileWords (x : Brick) (tile : Nat) : List (BitVec 32) :=
  (List.range 4096).map fun i => tget 0 x.mx.acc (tile * 4096 + i)

/-- The elements of an accumulator in a format: pairs of words for FP64 (R241). -/
def accElems (fmt : Nat) (ws : List (BitVec 32)) : List Nat :=
  if fmt = 2 then List.zipWith (fun lo hi => lo.toNat + 2 ^ 32 * hi.toNat) (ws.take 4096) (ws.drop 4096)
  else ws.map (·.toNat)

/-- The words that hold the elements of an accumulator (R241). -/
def accWords (fmt : Nat) (es : List Nat) : List (BitVec 32) :=
  if fmt = 2 then es.map (fun e => BitVec.ofNat 32 e) ++ es.map fun e => BitVec.ofNat 32 (e / 2 ^ 32)
  else es.map fun e => BitVec.ofNat 32 e

/-- R245: the roles of the operands: form 0 A·B, 1 Aᵀ·B, 2 A·Bᵀ. The results row by row with their events. -/
def product64 (fmt form na nb : Nat) (init : List Nat) : List (Nat × Events) :=
  let xs := (List.range 64).map fun i => (List.range 64).map fun k =>
    if form = 1 then tileElem fmt na k i k i else tileElem fmt na i k k i
  let ys := (List.range 64).map fun j => (List.range 64).map fun k =>
    if form = 2 then tileElem fmt nb j k k j else tileElem fmt nb k j k j
  let pairs := xs.flatMap fun xr => ys.map fun yc => (xr, yc)
  List.zipWith (fun p a => accumulate fmt 16 p.1 p.2 a .none) pairs init

/-- The rows of a 64 by 64 result in which an element raised an event (R248, R251). -/
def eventRows (rs : List Events) : BitVec 64 := maskOf fun r => ((rs.drop (64 * r)).take 64).any Events.any

/-- An operand group or an accumulator meets poison (R252). -/
def omPoisoned (x : Brick) (slots : List Nat) : Bool :=
  slots.any fun i => x.mx.omPoison.contains i || x.mx.omUe.any fun w => w / 1024 == i

def accPoisoned (x : Brick) (tiles : List Nat) : Bool :=
  tiles.any fun t => x.mx.accPoison.contains t || x.mx.accUe.any fun w => w / 2048 == t

/-- R246: the flight of the chain predecessor of an accumulating product into dst. -/
def chainOf (x : Brick) (dst fmt : Nat) (accum : Bool) : Option MxFlight :=
  match x.mx.last with
  | some (opc, d, f, due) =>
    if accum && opc ≤ 2 && d == dst && f == fmt && x.seq.clk < due then
      x.mx.flights.find? fun g => g.due == due && g.dst == dst && g.opc ≤ 2
    else none
  | none => none

/-- An array operation must not issue inside the interval of the previous one, whatever its guard (R71). -/
def State.arrayInterval (s : State) : State := s.foundIf (s.cur.seq.clk < s.cur.mx.arrayFree) 0x01 35

/-- The format fault of a table entry: no format of the array, or an alignment it breaks (R244, R248). -/
def mxFormatFault (code fmt : Nat) (groups : List Nat) (acc : Nat) : Bool :=
  code = 15 && (!mxFormat fmt || groups.any (fun i => i % omGroup fmt ≠ 0) || (fmt = 2 && acc % 2 ≠ 0))

/-- MMA and MMAT (R244 to R246, R249, R251, R252). -/
def arrayProduct (o : SlotOp) (opc form : Nat) (s : State) : State :=
  let x := s.cur
  let s0 := s.arrayInterval
  let code := o.mod % 16
  let fmt := resolveFmt x code
  let dst := o.dst.index
  if !guardTrue x o.g then s0
  else if mxFormatFault code fmt [o.a.index, o.b.index] dst then s0.foundAt 0x0E 35
  else
    let accum := o.mod / 16 % 2 == 1
    let pred := chainOf x dst fmt accum
    let tiles := accTiles fmt dst
    let ga := omSlots fmt o.a.index
    let gb := omSlots fmt o.b.index
    let kinds := if pred.isSome then [wDraining, wPending] else [wInFlight, wDraining, wPending]
    let s1 := s0.mxCheck 35 1 0 tiles (busy x kinds)
    let s2 := s1.mxCheck 35 2 0 (ga ++ gb) (busy x [wFilling])
    let s3 := s2.mxCheck 35 3 0 (ga ++ gb) fun i => !x.mx.claim.contains i
    let accIn := match pred with
      | some g => g.words
      | none => if accum then tiles.flatMap (tileWords x) else List.replicate (4096 * tiles.length) 0
    let psn := omPoisoned x (ga ++ gb) ||
      (accum && match pred with | some g => g.poison | none => accPoisoned x tiles)
    let rs := product64 fmt form (groupNat x fmt o.a.index) (groupNat x fmt o.b.index) (accElems fmt accIn)
    let words := if psn then List.replicate (4096 * tiles.length) poisonWord else accWords fmt (rs.map (·.1))
    let due := x.seq.clk + mmaLatency fmt
    let f : MxFlight :=
      { due := due, opc := opc, dst := dst, fmt := fmt, words := words, lines := [], aw := false, lane := 0, width := 0, left := 0,
        poison := psn, superseded := false,
        ev := if psn then .none else rs.foldl (fun acc r => acc.or r.2) .none,
        rows := if psn then 0 else eventRows (rs.map (·.2)), pc := s.issue.pc, issue := s.issue.issue }
    s3.onCur fun x =>
      let y := { x with
        mx := { x.mx with
          flights := (x.mx.flights.map fun g => if pred = some g then { g with superseded := true } else g) ++ [f]
          last := some (opc, dst, fmt, due)
          arrayFree := x.seq.clk + mmaInterval fmt } }
      openWindows (openWindows y wInFlight tiles (mmaLatency fmt)) wRead (ga ++ gb) (mmaInterval fmt)

/-- MMA (R245). -/
def execMma (o : SlotOp) (s : State) : Host.Outcome State Fault Refusal := .next (arrayProduct o 1 0 s)

/-- MMAT: AT or BT by mod[5] (R245). -/
def execMmat (o : SlotOp) (s : State) : Host.Outcome State Fault Refusal :=
  .next (arrayProduct o 2 (if o.mod / 32 % 2 = 1 then 2 else 1) s)

/-- Some write from APWR, APADD or MZERO performs on a segment at a plan count (R243). -/
def segWritten (x : Brick) (tile row seg due : Nat) : Bool :=
  x.flights.any fun f => f.due == due && (f.dest == .accSeg false tile row seg || f.dest == .accSeg true tile row seg ||
    f.dest == .accZero tile)

/-- MZERO (R243, R247, R249). -/
def execMzero (o : SlotOp) (s : State) : Host.Outcome State Fault Refusal :=
  let x := s.cur
  let t := o.dst.index
  .next (if guardTrue x o.g then
      let clash := x.flights.any fun f => f.due == x.seq.clk + 1 && match f.dest with
        | .accSeg _ t' _ _ => t' == t
        | .accZero t' => t' == t
        | _ => false
      ((s.mxCheck 35 1 0 [t] (busy x [wInFlight, wDraining])).foundIf clash 0x01 35).addFlight (s.plainFlight 35 1 (.accZero t) 0)
    else s)

/-- Lines of a group of elements of w bits, row by row; an LNS6 group takes unit scales (R238, R248). -/
def groupLines (fmt : Nat) (es : List Nat) : List Line :=
  let w := fmtWidth fmt
  let per := 512 / w
  let body := (List.range (4096 / per)).map fun i => ofElems w ((es.drop (per * i)).take per)
  if fmt = 3 then body ++ List.replicate 2 (ofElems 8 (List.replicate 64 0x7F)) ++ List.replicate 62 0 else body

/-- MDRAIN (R248, R249, R252). -/
def execMdrain (o : SlotOp) (s : State) : Host.Outcome State Fault Refusal :=
  let x := s.cur
  let s0 := s.arrayInterval
  let code := o.mod % 16
  let fmt := resolveFmt x code
  let src := o.a.index
  let dst := o.dst.index
  .next (if !guardTrue x o.g then s0
    else if mxFormatFault code fmt [dst] src then s0.foundAt 0x0E 35
    else
      let tiles := accTiles fmt src
      let slots := omSlots fmt dst
      let s1 := s0.mxCheck 35 1 0 tiles (busy x [wInFlight, wDraining, wPending])
      let s2 := s1.mxCheck 35 2 0 slots (busy x [wRead, wFilling])
      let s3 := s2.mxCheck 35 3 0 slots fun i => !x.mx.claim.contains i
      let es := accElems fmt (tiles.flatMap (tileWords x))
      let turned := if o.mod / 16 % 2 = 1 then
          (List.range 64).flatMap fun r => (List.range 64).map fun c => es.getD (64 * c + r) 0
        else es
      let rs := turned.map fun v => if fmt = 0 then (v, Events.none) else convert (if fmt = 2 then 2 else 0) fmt false v
      let psn := accPoisoned x tiles
      let f : MxFlight :=
        { due := x.seq.clk + 70, opc := 4, dst := dst, fmt := fmt, words := [],
          lines := if psn then List.replicate (128 * slots.length) (ofElems 32 (List.replicate 16 poisonWord.toNat))
            else groupLines fmt (rs.map (·.1)),
          aw := false, lane := src, width := 0, left := 0, poison := psn, superseded := false,
          ev := if psn then .none else rs.foldl (fun acc r => acc.or r.2) .none,
          rows := if psn then 0 else eventRows (rs.map (·.2)), pc := s.issue.pc, issue := s.issue.issue }
      s3.onCur fun x =>
        let y := { x with
          mx := { x.mx with
            flights := x.mx.flights ++ [f]
            last := some (4, dst, fmt, f.due)
            arrayFree := x.seq.clk + 64 } }
        openWindows (openWindows y wDraining tiles 64) wFilling slots 70)

/-- MCLAIM (R239). -/
def execMclaim (o : SlotOp) (s : State) : Host.Outcome State Fault Refusal :=
  let x := s.cur
  let i := o.dst.index
  .next (if guardTrue x o.g then
      (s.mxCheck 35 4 0 [i] fun i => x.mx.claim.contains i).addFlight (s.plainFlight 35 1 (.claim i) 0)
    else s)

/-- MREL (R239, R249). -/
def execMrel (o : SlotOp) (s : State) : Host.Outcome State Fault Refusal :=
  let x := s.cur
  let i := o.dst.index
  .next (if guardTrue x o.g then
      ((s.mxCheck 35 2 0 [i] (busy x [wRead, wFilling])).mxCheck 35 3 0 [i] fun i => !x.mx.claim.contains i).addFlight
        (s.plainFlight 35 1 (.release i) 0)
    else s)

/-- The lines that w lanes from lane f give at station 16 (R240). -/
def momlTaps (x : Brick) (aw : Bool) (f w : Nat) : List (Option Line) := (List.range w).map fun i => tap x aw (f + i) 16

/-- MOML: the first taps at t; the others follow a cycle apart (R240, R249). -/
def execMoml (o : SlotOp) (s : State) : Host.Outcome State Fault Refusal :=
  let x := s.cur
  let s0 := s.foundIf (x.seq.clk < x.mx.momlFree) 0x01 35
  let slot := o.dst.index
  let w := 2 ^ (o.mod % 4)
  let aw := match o.a with | .tap d _ => d | _ => false
  .next (if guardTrue x o.g then
      let s1 := (s0.mxCheck 35 2 0 [slot] (busy x [wRead, wFilling])).mxCheck 35 3 0 [slot] fun i => !x.mx.claim.contains i
      let s2 := (List.range w).foldl (fun s i => s.tapCheck 35 16 (.tap aw (o.a.index + i))) s1
      let n := 128 / w
      let f : MxFlight :=
        { due := x.seq.clk + n + 2, opc := 7, dst := slot, fmt := 0, words := [],
          lines := (momlTaps x aw o.a.index w).map fun d => d.getD 0,
          aw := aw, lane := o.a.index, width := w, left := n - 1, poison := false, superseded := false, ev := .none,
          rows := 0, pc := s.issue.pc, issue := s.issue.issue }
      s2.onCur fun x =>
        openWindows { x with mx := { x.mx with flights := x.mx.flights ++ [f], momlFree := x.seq.clk + n } } wFilling [slot] (n + 2)
    else s0)

/-- Write lines into operand memory from a slot's first line: fresh check bits (R252). -/
def omWrite (m : Matrix) (slot : Nat) (ls : List Line) : Matrix :=
  { m with
    om := writeLines m.om (8192 * slot) ls
    omUe := m.omUe.filter fun w => !(1024 * slot ≤ w && w < 1024 * slot + 8 * ls.length) }

/-- Write a tile's words (R241). -/
def accWrite (m : Matrix) (tile : Nat) (ws : List (BitVec 32)) : Matrix :=
  { m with
    acc := (ws.zipIdx).foldl (fun t p => tput 0 t (tile * 4096 + p.2) p.1) m.acc
    accUe := m.accUe.filter fun w => !(2048 * tile ≤ w && 2 * w < 4096 * tile + ws.length) }

/-- The next tap of each MOML in flight; an empty one is a late fault, and what was tapped before is written (R240). -/
def State.momlStep (s : State) (b : Nat) : State :=
  (s.brick b).mx.flights.foldl (fun s f =>
    if f.opc = 7 && f.left ≠ 0 then
      let x := s.brick b
      let taps := momlTaps x f.aw f.lane f.width
      match taps.findIdx? Option.isNone with
      | none =>
        s.onBrick b fun x =>
          { x with
            mx := { x.mx with
              flights := x.mx.flights.map fun g =>
                if g = f then { g with left := g.left - 1, lines := g.lines ++ taps.map fun d => d.getD 0 } else g } }
      | some i =>
        let s1 := s.onBrick b fun x =>
          { x with
            mx := { omWrite x.mx f.dst f.lines with flights := x.mx.flights.filter fun g => g ≠ f } }
        s1.lateOf b 0x04 35 f.pc f.issue [(0x048, rgfTap s f.aw (f.lane + i) 16)]
    else s) s

/-- An operation of the array or an MOML completes (R240, R245, R246, R248, R251, R252). -/
def landMatrix (x : Brick) (f : MxFlight) : Brick :=
  let m := { x.mx with flights := x.mx.flights.filter fun g => g ≠ f }
  let mark (psn : Bool) (is old : List Nat) := is.foldl (fun acc i => if psn then insNat i acc else without i acc) old
  if f.opc ≤ 2 then
    if f.superseded then { x with mx := m }
    else
      let tiles := accTiles f.fmt f.dst
      let m1 := (tiles.zipIdx).foldl (fun m p => accWrite m p.1 ((f.words.drop (4096 * p.2)).take 4096)) m
      { x with mx := { m1 with accPoison := mark f.poison tiles m.accPoison } }
  else if f.opc = 4 then
    let slots := omSlots f.fmt f.dst
    { x with mx := { omWrite m f.dst f.lines with omPoison := mark f.poison slots m.omPoison } }
  else { x with mx := { omWrite m f.dst f.lines with omPoison := without f.dst m.omPoison } }

/-- The next matrix operation that completes on this plan count. -/
def nextMatrix (x : Brick) : Option MxFlight := x.mx.flights.find? fun f => f.due ≤ x.seq.clk

/-- Completion with its record and its late fault (R251, R252). -/
def State.completeMatrix (s : State) (b : Nat) : State :=
  match nextMatrix (s.brick b) with
  | none => s
  | some f =>
    let s1 := s.onBrick b fun x => landMatrix x f
    let s2 := if f.ev.any then s1.pollen b 35 (pollenRec 0x02 35 f.pc f.issue f.ev f.rows) else s1
    if f.poison then
      s2.lateOf b 0x0B 35 f.pc f.issue [(0x04A, mxfWord s 5 0 (if f.opc = 4 then f.lane else f.dst))]
    else s2

/-- The row that an ap word names (R242). -/
def apRow (x : Brick) (o : ApOp) : Nat := (scalarVal x o.row).toNat % 64

/-- The unit number of a port in MXFSTAT (R250). -/
def apUnit (pos : Nat) : Nat := pos - 35

/-- The words of a row segment, an uncorrectable one read as the poison word (R252). -/
def segWords (x : Brick) (tile row seg : Nat) : List Nat × Bool :=
  let idx := (List.range 16).map fun i => tile * 4096 + row * 64 + seg * 16 + i
  (idx.map fun i => if x.mx.accUe.contains (i / 2) then poisonWord.toNat else (tget 0 x.mx.acc i).toNat,
    idx.any fun i => x.mx.accUe.contains (i / 2))

/-- APRD (R242, R249, R252). -/
def execAprd (o : ApOp) (s : State) : Host.Outcome State Fault Refusal :=
  let x := s.cur
  let t := o.tile.index
  .next (if guardTrue x o.g then
      let r := segWords x t (apRow x o) o.seg
      let s1 := (s.mxCheck o.pos 1 (apUnit o.pos) [t] (busy x [wInFlight])).foundIf (scalarUe x o.row) 0x0B o.pos
      let s2 := if r.2 then s1.onCur fun x => { x with mx := { x.mx with accPoison := insNat t x.mx.accPoison } } else s1
      (s2.claimLane o.pos o.aw o.lane 16 4).addFlight (s.plainFlight o.pos 4 (.drive o.aw o.lane 16) (ofElems 32 r.1))
    else s)

/-- APWR and APADD: the tapped line reaches its segment lat cycles later (R242, R243, R249). -/
def apStore (o : ApOp) (add : Bool) (lat : Nat) (s : State) : State :=
  let x := s.cur
  let t := o.tile.index
  let row := apRow x o
  if guardTrue x o.g then
    let s1 := (s.mxCheck o.pos 1 (apUnit o.pos) [t] (busy x [wInFlight, wDraining])).tapCheck o.pos 16 (.tap o.aw o.lane)
    let s2 := (s1.foundIf (scalarUe x o.row) 0x0B o.pos).foundIf (segWritten x t row o.seg (x.seq.clk + lat)) 0x01 o.pos
    (s2.addFlight (s.plainFlight o.pos lat (.accSeg add t row o.seg) ((tap x o.aw o.lane 16).getD 0))).onCur fun x =>
      openWindows x wPending [t] lat
  else s

/-- APWR (R242). -/
def execApwr (o : ApOp) (s : State) : Host.Outcome State Fault Refusal := .next (apStore o false 4 s)

/-- APADD (R242). -/
def execApadd (o : ApOp) (s : State) : Host.Outcome State Fault Refusal := .next (apStore o true 6 s)

/-- Write one row segment (R242). -/
def segWrite (m : Matrix) (tile row seg : Nat) (ws : List Nat) : Matrix :=
  let base := tile * 4096 + row * 64 + seg * 16
  { m with
    acc := (ws.zipIdx).foldl (fun t p => tput 0 t (base + p.2) (BitVec.ofNat 32 p.1)) m.acc
    accUe := m.accUe.filter fun w => !(base ≤ 2 * w && 2 * w < base + 16) }

/-- A port write performs; an addition reads its segment in the same access (R242, R243, R252). -/
def State.landAccSeg (s : State) (b : Nat) (f : Flight) (add : Bool) (tile row seg : Nat) : State :=
  if add then
    let x := s.brick b
    let old := segWords x tile row seg
    let rs := List.zipWith f32.add old.1 (elems 32 f.value)
    let ev := rs.foldl (fun acc r => acc.or r.2) Events.none
    let s1 := s.onBrick b fun x =>
      let m := segWrite x.mx tile row seg (rs.map (·.1))
      { x with mx := if old.2 then { m with accPoison := insNat tile m.accPoison } else m }
    if ev.any then s1.pollen b f.slot (pollenRec 0x02 f.slot f.pc f.issue ev (1#64 <<< row)) else s1
  else s.onBrick b fun x => { x with mx := segWrite x.mx tile row seg (elems 32 f.value) }

/-- MZERO performs: every word +0, the poison bit clear (R247). -/
def landAccZero (x : Brick) (tile : Nat) : Brick :=
  { x with
    mx := { x.mx with
      acc := x.mx.acc.filter fun p => p.1 / 4096 ≠ tile
      accPoison := without tile x.mx.accPoison
      accUe := x.mx.accUe.filter fun w => w / 2048 ≠ tile } }

/-- Operand memory as a switch carries it: slots not claimed are zero and clean (R239, R392). -/
def Matrix.claimedOnly (m : Matrix) : Matrix :=
  { m with
    om := m.om.filter fun c => m.claim.contains (c.1 / 8192)
    omPoison := m.omPoison.filter m.claim.contains
    omUe := m.omUe.filter fun w => m.claim.contains (w / 1024) }

/-- A release lands: the slot is unclaimed, zero and clean (R239). -/
def landRelease (x : Brick) (i : Nat) : Brick :=
  { x with
    mx := { x.mx with
      claim := without i x.mx.claim
      om := x.mx.om.filter fun c => c.1 / 8192 ≠ i
      omPoison := without i x.mx.omPoison
      omUe := x.mx.omUe.filter fun w => w / 1024 ≠ i } }

end Sys2Proof.Machine
end

