-- ==== Sys2Proof/Machine/Image.lean ====
section
/-! DEFINITION. The resumable state of a brick: the edits of the state window and the layout of the save image (R384, R386, R390,
R392, R394). -/

namespace Sys2Proof.Machine

/-- The bits of a system register that the save image holds: those a task can write; none for a register with no such bits
(R197, R357, R392, and the register tables). -/
def savedBits (n : Nat) : Option Word :=
  if n = 0x023 then some 0x3F07#64
  else if n = 0x024 then some 0xF3F#64
  else if n = 0x026 ∨ n = 0x049 ∨ n = 0x04D ∨ n = 0x04E then some (BitVec.allOnes 64)
  else if n = 0x027 then some 0xFFFFFFFF00000001#64
  else if n = 0x029 then some 0xFFFFFFFF00001FFF#64
  else if n = 0x02A then some 0xFFFFFFFF03FFFFFF#64
  else if n = 0x02B then some 0xFFFFFFFF#64
  else if n = 0x043 then some 0xFFFFFFFF000003FF#64
  else if n = 0x045 then some 0x1FFF#64
  else if n = 0x047 then some 0xFFFFFFFFFFFFFF0F#64
  else if n = 0x048 then some 0xFFFFFFFF0FFFFFFF#64
  else if n = 0x04A then some 0xFFFFFFFF000003FF#64
  else if n = 0x04C then some 0x0000FFFF3FFFFFFF#64
  else if n = 0x04F then some 0xFFFFFFFF0FFFFF3F#64
  else none

/-- The bits of a pollen record that are neither reserved nor zero, by its kind; the others read as zero whatever is written (R3, R151, R236,
R311, R350). -/
def recordBits (kind : Nat) : BitVec 128 :=
  match kind with
  | 0x03 => 0xFFFFFFFF00FFFFFF3FFFFFFFFFFF7FFF#128
  | 0x04 => 0xFFFFFFFFFFFFFF0F3FFFFFFFFFFF7FFF#128
  | 0x21 => 0xFFFFFFFF000000FF3FFFFFFFFFFF7FFF#128
  | _ => 0xFFFFFFFFFFFFFFFF3FFFFFFFFFFF7FFF#128

/-- The bits of a snapshot descriptor that are not reserved (R3, R384). -/
def descriptorBits : Word := 0x000FFFFFFFFF3FFF#64

/-- The flight whose descriptor has index k takes a new value or mask (R384). -/
def editFlight (g : Flight → Flight) : List Flight → Nat → List Flight
  | [], _ => []
  | f :: fs, k => match describe f, k with
    | none, _ => f :: editFlight g fs k
    | some _, 0 => g f :: fs
    | some _, j + 1 => f :: editFlight g fs j

/-- A number joins a set or leaves it. -/
def setMember (v : Bool) (n : Nat) (l : List Nat) : List Nat := if v then insNat n l else without n l

/-- The value line of a scalar ST holds its data, its size code in byte 8 and its byte offset within the word in byte 9; every other
value line is the value (R384). -/
def storeLine (v : Line) (addr size : Nat) : Line :=
  BitVec.ofNat 512 (v.toNat % 2 ^ 64 + size % 256 * 2 ^ 64 + addr % 8 * 2 ^ 72)

/-- What the in-flight value store holds for an operation: of a read by MRD, MRDT, LD or a narrow ST that has still to perform, what it
has captured (R384, R386; log entry 118). -/
def Flight.valueLine (f : Flight) : Line :=
  match f.dest with
  | .ringStore addr size => storeLine f.value addr size
  | .readStore addr size fin =>
    if f.due + 2 > fin then Config.capturedLine addr size 0 0 (f.value.setWidth 64) else storeLine f.value addr size
  | .readLine aw lane st block line fin =>
    if f.due + 2 > fin then Config.capturedLine (262144 * block + 64 * line) 64 (lane + 16 * aw.toNat) st 0 else f.value
  | .readWord addr size zx r fin => if f.due + 2 > fin then Config.capturedLine addr size zx.toNat r 0 else f.value
  | _ => f.value

/-- An operation whose line of the in-flight value store takes new contents (R384, R386; log entry 118). -/
def Flight.withLine (f : Flight) (v : Line) : Flight :=
  let data := v &&& (BitVec.ofNat 512 (2 ^ 64 - 1))
  let at' (addr : Nat) : Nat := addr / 8 * 8 + fld v.toNat 72 3
  let c := Config.capturedFields v
  match f.dest with
  | .ringStore addr _ => { f with value := data, dest := .ringStore (at' addr) (fld v.toNat 64 2) }
  | .readStore addr _ fin =>
    if f.due + 2 > fin then { f with value := c.2.2.2.2.setWidth 512, dest := .readStore (c.1 % 2 ^ 21) (c.2.1 % 4) fin }
    else { f with value := data, dest := .readStore (at' addr) (fld v.toNat 64 2) fin }
  | .readLine _ _ _ _ _ fin =>
    if f.due + 2 > fin then
      { f with dest := .readLine (c.2.2.1 / 16 % 2 == 1) (c.2.2.1 % 16) (c.2.2.2.1 % 20) (c.1 / 262144 % 8) (c.1 / 64 % 4096) fin }
    else { f with value := v }
  | .readWord _ _ _ _ fin =>
    if f.due + 2 > fin then { f with dest := .readWord (c.1 % 2 ^ 21) (c.2.1 % 4) (c.2.2.1 % 2 == 1) (c.2.2.2.1 % 64) fin }
    else { f with value := v }
  | _ => { f with value := v }

/-- MODE by the number that HSTAT gives it (R276). -/
def hodModeOf (n : Nat) : HodMode :=
  match n with
  | 0 => .closed
  | 1 => .root
  | 2 => .splitWait
  | 3 => .child
  | _ => .sealing

/-- The stack of the Hod takes a new MODE, ℓ, TOP and BOT: words that it held stay, others are zero. -/
def HodCore.reshape (c : HodCore) (mode ell top bot : Nat) : HodCore :=
  { c with
    mode := hodModeOf mode
    ell := max 1 (min 32 ell)
    words := ((List.range (top - bot)).map fun i => (c.word (bot + i)).getD 0).reverse
    top := top
    bot := bot
    bad := c.bad.filter fun q => bot ≤ q && q < top }

/-- One location of the resumable state is replaced, whole, with fresh check bits (R166, R390). -/
def editBrick (x : Brick) : WindowEdit → Brick
  | .sreg i v => { x with sc := { x.sc with s := tput 0 x.sc.s i v, ue := without i x.sc.ue } }
  | .qpred i v => { x with sc := { x.sc with q := tput false x.sc.q i v } }
  | .vreg c i v =>
    { x with vec := { x.vec with v := tput 0 x.vec.v (vregKey c i) v, ue := without (vregKey c i) x.vec.ue } }
  | .ppred c i v =>
    { x with vec := { x.vec with p := tput 0 x.vec.p (ppredKey c i) v, ue := without (8192 + ppredKey c i) x.vec.ue } }
  | .ringLine line v => { x with ring := x.ring.writeLine line v false }
  | .tag g v => setTag x g v
  | .accSeg tile row seg v => { x with mx := segWrite x.mx tile row seg (elems 32 v) }
  | .omLine slot line v =>
    { x with
      mx := { x.mx with
        om := writeLine x.mx.om (8192 * slot + 64 * line) v
        omUe := x.mx.omUe.filter fun w => w / 8 ≠ 128 * slot + line } }
  | .pattern bank p v =>
    { x with
      vec := { x.vec with
        patterns := tput identityPattern x.vec.patterns (bank * 64 + p) (mapElems 8 (· % 128) v)
        ue := without (8320 + bank * 64 + p) x.vec.ue } }
  | .format i code => { x with formats := tput 0 x.formats i (code % 16) }
  | .slatch u v => { x with sc := { x.sc with latch := tput 0 x.sc.latch u v } }
  | .clatch c u v => { x with vec := { x.vec with latch := tput 0 x.vec.latch (c * 3 + u) v } }
  | .flight k v => { x with flights := editFlight (Flight.withLine · v) x.flights k }
  | .flightMask k m => { x with flights := editFlight (fun f => { f with mask := m }) x.flights k }
  | .laneValue aw lane station v =>
    { x with
      ring := { x.ring with
        lanes := x.ring.lanes.map fun l => if l.data.isSome && l.at aw lane station x.seq.clk then { l with data := some v } else l } }
  | .pollen k r => { x with pollen := x.pollen.set k (r &&& recordBits (r.toNat % 256)) }
  | .sysReg n v => match savedBits n with
    | some m => sysSet x n (v &&& m)
    | none => x
  | .barrier i v => { x with var := { x.var with barriers := tput 0 x.var.barriers i (v % 256) } }
  | .status i v => { x with var := { x.var with vs := tput 0 x.var.vs i (v &&& 0xFFFFFFFFFFFFFF1F#64) } }
  | .pc v => { x with seq := { x.seq with pc := v % 2 ^ 34 } }
  | .depth v => { x with seq := { x.seq with depth := min v 6 } }
  | .level i idx rem step start fin =>
    { x with
      seq := { x.seq with
        loops := tput Loop.zero x.seq.loops i
          ⟨idx % 2 ^ 64, rem % 2 ^ 32, toSigned 8 (ofInt 8 step), start % 2 ^ 34, fin % 2 ^ 34⟩ } }
  | .bases c rrb prb =>
    { x with seq := { x.seq with rrb := tput 0 x.seq.rrb c (rrb % 512), prb := tput 0 x.seq.prb c (prb % 8) } }
  | .held pos w => { x with seq := { x.seq with held := tput 0 x.seq.held pos w } }
  | .steps pos sd sa sb =>
    { x with
      seq := { x.seq with
        steps := tput ⟨0, 0, 0⟩ x.seq.steps pos
          ⟨toSigned 8 (ofInt 8 sd), toSigned 8 (ofInt 8 sa), toSigned 8 (ofInt 8 sb)⟩ } }
  | .region origin offset slack lag =>
    { x with seq := { x.seq with origin := origin, offset := offset, slack := slack, lag := lag % 2 ^ 32 } }
  | .times pt c0 => { x with seq := { x.seq with pt := pt, c0 := c0 } }
  | .progress issueNo gap => { x with seq := { x.seq with issueNo := issueNo % 256, gapLeft := gap } }
  | .claim slot v => { x with mx := { x.mx with claim := setMember v slot x.mx.claim } }
  | .slotPoison slot v => { x with mx := { x.mx with omPoison := setMember v slot x.mx.omPoison } }
  | .tilePoison tile v => { x with mx := { x.mx with accPoison := setMember v tile x.mx.accPoison } }
  | .hodLane i v => { x with hod := { x.hod with core := { x.hod.core with lanes := x.hod.core.lanes.set i v } } }
  | .hodWord pos w =>
    { x with
      hod := { x.hod with
        core := { x.hod.core with
          words := if pos < x.hod.core.top then x.hod.core.words.set (x.hod.core.top - 1 - pos) w else x.hod.core.words
          bad := without pos x.hod.core.bad } } }
  | .hodRec k bits pos =>
    let rs := x.hod.core.recs
    { x with
      hod := { x.hod with
        core := { x.hod.core with recs := if k < rs.length then rs.set (rs.length - 1 - k) ⟨bits, pos⟩ else rs } } }
  | .activeBank v => { x with vec := { x.vec with activeBank := v % 2 } }
  | .hodStack mode ell top bot => { x with hod := { x.hod with core := x.hod.core.reshape mode ell top bot } }
  | .hodCount n =>
    let rs := x.hod.core.recs
    { x with hod := { x.hod with core := { x.hod.core with recs := List.replicate (n - rs.length) ⟨0, 0⟩ ++ rs.drop (rs.length - n) } } }
  | .hodUnits hbm deep => { x with hod := { x.hod with hbmUnits := hbm, deepUnits := deep } }
  | .hodChild k hdr idx state ell base ptr =>
    { x with
      hod := { x.hod with
        core := { x.hod.core with
          children := setNth x.hod.core.children k fun c =>
            { c with hdr := hdr, idx := idx, state := state, ell := ell, base := base, ptr := ptr } } } }
  | .hodChildLane k i v =>
    { x with hod := { x.hod with core := { x.hod.core with
        children := setNth x.hod.core.children k fun c => { c with lanes := c.lanes.set i v } } } }
  | .hodChildRec k i bits pos =>
    { x with hod := { x.hod with core := { x.hod.core with
        children := setNth x.hod.core.children k fun c => { c with recs := c.recs.set i ⟨bits, pos⟩ } } } }
  | .hodOp k due left => { x with hod := { x.hod with flights := setNth x.hod.flights k fun f => { f with due := due, left := left } } }
  | .hodOpLine k i v => { x with hod := { x.hod with flights := setNth x.hod.flights k fun f => { f with lines := f.lines.set i v } } }
  | .mxOp k due left => { x with mx := { x.mx with flights := setNth x.mx.flights k fun f => { f with due := due, left := left } } }
  | .mxWord k i v => { x with mx := { x.mx with flights := setNth x.mx.flights k fun f => { f with words := f.words.set i v } } }
  | .mxLine k i v => { x with mx := { x.mx with flights := setNth x.mx.flights k fun f => { f with lines := f.lines.set i v } } }
  | .mxWindow k kind index last => { x with mx := { x.mx with windows := setNth x.mx.windows k fun _ => ⟨kind, index, last⟩ } }
  | .heldWord k i v =>
    { x with
      held := setNth x.held k fun h =>
        match i with
        | 0 => { h with w0 := v }
        | 1 => { h with w1 := v }
        | _ => { h with w2 := v } }
  | .heldTime k start course => { x with held := setNth x.held k fun h => { h with start := start, course := course } }
  | .hodFreq t i f =>
    let p := tget (List.replicate 256 0, 12) x.hod.tables t
    { x with hod := { x.hod with tables := tins x.hod.tables t (p.1.set i (f % 2 ^ 16), p.2) } }
  | .hodPrec t k =>
    let p := tget (List.replicate 256 0, 12) x.hod.tables t
    { x with hod := { x.hod with tables := tins x.hod.tables t (p.1, k % 16) } }
  | .heldLine k i v psn => { x with held := setNth x.held k fun h => { h with got := setNth h.got i fun g => { g with data := v, poison := psn } } }

/-- A line made of a list of words of w bits. -/
def packLine (w : Nat) (f : Nat → Nat) : Line := ofElems w ((List.range (512 / w)).map f)

/-- Lines of a save image (R392). -/
def imageLines : Nat := 54272

/-- The lines of a save image whose layout the tables fix; that of the control block, the lane values, the matrix operations and the
Hod's regions is left open (R384, R390, R392; log entry 73). -/
def fixedLine (n : Nat) : Bool :=
  n < 32768 || (33024 ≤ n && n < 41904) || (42256 ≤ n && n < 48400) || (54224 ≤ n && n < imageLines)

/-- Line n of a brick's state in the layout of the save image (R384, R390, R392; log entry 73). -/
def saveLine (x : Brick) (n : Nat) : Line :=
  let vals := x.flights.filter fun f => (describe f).isSome
  if !fixedLine n then Config.imageLine x n
  else if n < 32768 then readLine x.ring.mem (64 * n)
  else if n < 33088 then packLine 128 fun i => (x.pollen.getD (4 * (n - 33024) + i) 0).toNat
  else if n < 33120 then packLine 64 fun i => (x.trap.snap.getD (8 * (n - 33088) + i) 0).toNat
  else if n < 33136 then packLine 16 fun i => (tagOf x (32 * (n - 33120) + i)).toNat
  else if n < 33280 then 0
  else if n < 41472 then tget 0 x.vec.v (vregKey ((n - 33280) / 1024) ((n - 33280) % 1024))
  else if n < 41488 then packLine 64 fun i => let j := 8 * (n - 41472) + i; (tget 0 x.vec.p (ppredKey (j / 16) (j % 16))).toNat
  else if n < 41616 then tget identityPattern x.vec.patterns (n - 41488)
  else if n < 41872 then (match vals[n - 41616]? with | some f => f.valueLine | none => 0)
  else if n < 41904 then packLine 64 fun i => (match vals[8 * (n - 41872) + i]? with | some f => f.mask.toNat | none => 0)
  else if n < 46352 then
    let j := n - 42256
    packLine 32 fun i => (tget 0 x.mx.acc (accKey (j / 256) (j % 256 / 4) (16 * (j % 4) + i))).toNat
  else if n < 48400 then readLine x.mx.om (64 * (n - 46352))
  else 0

/-- The HBM address of slot i of brick b (R392). -/
def State.slotAddr (s : State) (b i : Nat) : Nat := s.savebase + 3473408 * (4 * b + i)

/-- Line n of a save image with its poison, which a line of ring memory takes along (R77, R136, R166, R392). -/
def imageLine (x : Brick) (n : Nat) : Line × Bool :=
  if n < 32768 && x.ring.poison.contains n then (poisonLine, true) else (saveLine x n, false)

/-- The HBM line at an address, in every state of its stripe (R76, R109, R111). -/
def State.hbmLine (s : State) (a : Nat) : Line × Bool :=
  let p := placeOf a
  (s.readDataBlock p.ch p.bank p.row p.col (a / 512 % 23)).getD (a / 64 % 8) (0, false)

/-- Stripe k of HBM is written whole, its lines as f gives them and the others as they are (R76, R102). -/
def State.patchStripe (s : State) (k : Nat) (f : Nat → Option (Line × Bool)) : State :=
  let ch := k % 32
  let col := k / 32 % 4
  let bank := k / 128 % 80
  let row := k / 10240
  s.writeStripe ch bank row col ((List.range 23).map fun d =>
    ((s.readDataBlock ch bank row col d).zipIdx).map fun q => (f (184 * k + 8 * d + q.2)).getD q.1)

/-- The switch writes lines into HBM: of n lines from an address on those that f gives, as far as HBM reaches, with the parity of
their stripes (R392; log entry 73). -/
def State.writeLines (s : State) (a n : Nat) (f : Nat → Option (Line × Bool)) : State :=
  let g (l : Nat) : Option (Line × Bool) := if a / 64 ≤ l && l < a / 64 + n then f (l - a / 64) else none
  let stripes := ((List.range (n / 184 + 2)).map (a / 11776 + ·)).filter fun k =>
    k < hbmSize / 11776 && (List.range 184).any fun i => (g (184 * k + i)).isSome
  let u := stripes.foldl (fun s k => s.patchStripe k g) s
  { s with
    hbm := u.hbm, hbmUe := u.hbmUe, hbmCe := u.hbmCe
    channels := s.channels.map fun c => (c.1, { c.2 with torn := (u.channel c.1).torn }) }

/-- A brick's image goes into slot i of brick b (R392). -/
def State.storeImage (s : State) (b i : Nat) (x : Brick) : State :=
  s.writeLines (s.slotAddr b i) imageLines fun n => some (imageLine x n)

/-- The save slot of brick b that a resident task has taken (R392). -/
def Task.slotOf (t : Task) (b : Nat) : Option Nat :=
  if t.resident then (t.slots.find? fun q => q.1 == b).map (·.2) else .none

/-- What changed at the home of a parked brick since it was old goes into its image (R394). -/
def State.syncImage (s : State) (n : Nat) (old : Brick) : State :=
  if n < 768 then s
  else match (s.task (n / 768 - 1)).slotOf (n % 768) with
    | some i => s.writeLines (s.slotAddr (n % 768) i) imageLines fun l =>
        let v := imageLine (s.home n) l
        if v = imageLine old l then none else some v
    | none => s

/-- The lines of an image, of those whose layout is fixed, that HBM no longer holds as the saved state has them (R392; log
entry 73). -/
def State.imageChanges (s : State) (b i : Nat) (x : Brick) : List (Nat × Line × Bool) :=
  (List.range imageLines).filterMap fun n =>
    let a := s.slotAddr b i + 64 * n
    if !fixedLine n || hbmSize < a + 64 || s.hbmLine a = imageLine x n then none else some (n, s.hbmLine a)

/-- The part of a line that holds number i of w bits. -/
def linePart (w : Nat) (v : Line) (i : Nat) : BitVec w := BitVec.ofNat w (v.toNat / 2 ^ (w * i))

/-- What an uncorrectable line of an image is loaded into has an uncorrectable error: ring memory takes its poison along, and registers,
patterns, tiles and operand memory are marked (R77, R136, R166; log entry 163). -/
def Brick.markLine (x : Brick) (n : Nat) : Brick :=
  let marks (l : List Nat) (lo k : Nat) : List Nat := (List.range k).foldl (fun l i => insNat (lo + i) l) l
  let v (lo k : Nat) : Brick := { x with vec := { x.vec with ue := marks x.vec.ue lo k } }
  if n < 33280 || 48400 ≤ n then x
  else if n < 41472 then v (vregKey ((n - 33280) / 1024) ((n - 33280) % 1024)) 1
  else if n < 41488 then (List.range 8).foldl (fun x i => let j := 8 * (n - 41472) + i
    { x with vec := { x.vec with ue := insNat (8192 + ppredKey (j / 16) (j % 16)) x.vec.ue } }) x
  else if n < 41616 then v (8320 + (n - 41488)) 1
  else if n < 42256 then x
  else if n < 46352 then { x with mx := { x.mx with accUe := marks x.mx.accUe (8 * (n - 42256)) 8 } }
  else if x.mx.claim.contains ((n - 46352) / 128) then { x with mx := { x.mx with omUe := marks x.mx.omUe (8 * (n - 46352)) 8 } }
  else x

/-- One line of an image takes its place in the brick; a slot that is not claimed loads as zero (R239, R392). -/
def Brick.placeLine (x : Brick) (q : Nat × Line × Bool) : Brick :=
  let n := q.1
  let v := q.2.1
  let each (k : Nat) (e : Nat → WindowEdit) : Brick := (List.range k).foldl (fun x i => editBrick x (e i)) x
  if n < 32768 then { x with ring := x.ring.writeLine n v q.2.2 }
  else if n < 33088 then each 4 fun i => .pollen (4 * (n - 33024) + i) (linePart 128 v i)
  else if n < 33120 then
    { x with trap := { x.trap with snap := (List.range 8).foldl (fun l i => l.set (8 * (n - 33088) + i) (linePart 64 v i &&& descriptorBits)) x.trap.snap } }
  else if n < 33136 then each 32 fun i => .tag (32 * (n - 33120) + i) (linePart 16 v i)
  else if n < 33280 then x
  else if n < 41472 then editBrick x (.vreg ((n - 33280) / 1024) ((n - 33280) % 1024) v)
  else if n < 41488 then
    each 8 fun i => let j := 8 * (n - 41472) + i; .ppred (j / 16) (j % 16) (linePart 64 v i)
  else if n < 41616 then editBrick x (.pattern ((n - 41488) / 64) ((n - 41488) % 64) v)
  else if n < 41872 then editBrick x (.flight (n - 41616) v)
  else if n < 41904 then each 8 fun i => .flightMask (8 * (n - 41872) + i) (linePart 64 v i)
  else if n < 46352 then let j := n - 42256; editBrick x (.accSeg (j / 256) (j % 256 / 4) (j % 4) v)
  else
    let j := n - 46352
    if x.mx.claim.contains (j / 128) then editBrick x (.omLine (j / 128) (j % 128) v) else x

/-- One line of an image is loaded, with its error (R77, R392). -/
def Brick.loadLine (x : Brick) (q : Nat × Line × Bool) : Brick :=
  let y := x.placeLine q
  if q.2.2 then y.markLine q.1 else y

/-- A saved brick as its image is loaded: what HBM holds otherwise than it was stored takes its place (R371, R392). -/
def Brick.loadLines (x : Brick) (qs : List (Nat × Line × Bool)) : Brick :=
  let u := qs.foldl Brick.loadLine x
  { x with
    ring := u.ring, vec := u.vec, mx := u.mx, pollen := u.pollen, flights := u.flights
    trap := { x.trap with snap := u.trap.snap } }

end Sys2Proof.Machine
end

