-- ==== Sys2Proof/Machine/Links.lean ====
section
/-! DEFINITION. Timed transfers and collectives: LSEND, LRECV, CBCAST, CGATH and CRED, flits, NAKs and retries (R233 to R235,
R339 to R352). -/

namespace Sys2Proof.Machine

/-- LP of the path to a rank, and its port (R340, R358). -/
def State.lp (s : State) (r : Nat) : Nat := fld (tget 0 s.pathtbl r) 6 10
def State.portTo (s : State) (r : Nat) : Nat := fld (tget 0 s.pathtbl r) 0 6

/-- The retry offset of a path (R340). -/
def State.rt (s : State) (r : Nat) : Nat := 2 * s.lp r + 8

/-- A rank that may be named: in RANKTBL, present, not fenced, with a valid path (R347 cause 3). -/
def State.peerOk (s : State) (r : Nat) : Bool :=
  let e := tget 0 s.ranktbl r
  r < 3072 && fld e 12 1 == 1 && fld e 13 1 == 0 && s.lp r != 0

/-- The word of LNFSTAT (R357). -/
def lnfWord (s : State) (cause opc rank : Nat) : Word :=
  BitVec.ofNat 64 (1 + cause * 2 + opc * 2 ^ 5 + rank % 2 ^ 12 * 2 ^ 14 + s.ct32 * 2 ^ 32)

def Held.isLink (h : Held) : Bool := 0x20 ≤ h.opc && h.opc ≤ 0x33

/-- Commands that take incoming lines, and those that may send. -/
def Held.takes (h : Held) : Bool := h.isLink && h.opc != 0x20
def Held.sends (h : Held) : Bool := h.isLink && h.opc != 0x21 && h.w1.getLsbD 22

/-- The in word (R343). -/
def Held.inWord (h : Held) : Word := if h.opc = 0x21 then h.w1 else h.w2

/-- Fields of the command words (R343). -/
def Held.addr (h : Held) : Nat := fld h.w0.toNat 0 21
def Held.lines (h : Held) : Nat := fld h.w0.toNat 21 3 + 1
def Held.wr (h : Held) : Bool := h.opc == 0x21 || (h.opc != 0x20 && h.w0.getLsbD 24)
def Held.norm (h : Held) : Bool := h.w0.getLsbD 25
def Held.hop (h : Held) : Nat := fld h.w0.toNat 32 16
def Held.linIn (h : Held) : Nat := if h.opc = 0x33 then fld h.w2.toNat 12 3 + 1 else h.lines
def Held.dstRank (h : Held) : Nat := fld h.w1.toNat 0 12
def Held.dstBrick (h : Held) : Nat := fld h.w1.toNat 12 10
def Held.crit (h : Held) : Bool := h.w1.getLsbD 23
def Held.aOut (h : Held) : Nat := fld h.w1.toNat 32 32
def Held.srcRank (h : Held) : Nat := fld h.inWord.toNat 0 12
def Held.critIn (h : Held) : Bool := h.inWord.getLsbD 23
def Held.aIn (h : Held) : Nat := fld h.inWord.toNat 32 32

/-- N of a command (R342). -/
def Held.count (h : Held) : Nat := if h.opc = 0x33 then h.lines + h.linIn else h.lines

/-- A CRED. -/
def Held.isCred (h : Held) : Bool := h.opc == 0x30 || h.opc == 0x31

/-- The local word and the ring extent obey R343. -/
def linkLocal (h : Held) : Bool :=
  let l := h.w0.toNat
  let cred := h.isCred
  l % 64 == 0 && fld l 26 6 == 0 && fld l 48 16 == 0 && (h.opc != 0x20 || fld l 24 1 == 0) &&
    (fld l 25 1 == 0 || (h.opc == 0x30 && h.lines == 1)) && (cred || fld l 32 16 == 0) &&
    h.addr + 64 * (if h.opc = 0x33 && h.wr then h.count else h.lines) ≤ 2 ^ 21 && h.count ≤ 8

/-- The out and in words obey R343. -/
def linkPeers (h : Held) : Bool :=
  let out := h.w1.toNat
  let outOk := h.opc == 0x21 ||
    (if fld out 22 1 = 1 then fld out 24 8 == 0 && h.dstBrick ≤ 767 else out == 0 && h.opc != 0x20)
  let inn := h.inWord.toNat
  let inOk := h.opc == 0x20 || ((h.opc == 0x33 || fld inn 12 3 == 0) && fld inn 15 8 == 0 && fld inn 24 8 == 0)
  outOk && inOk

/-- The words obey R343. -/
def linkWords (h : Held) : Bool := linkLocal h && linkPeers h

/-- Two port slots overlap (R341). -/
def slotsMeet (a b : Nat × Nat) : Bool := a.1 == b.1 && a.2 < b.2 + 5 && b.2 < a.2 + 5

/-- A slot is claimed on its port by some command of the package (R347 cause 2). -/
def State.slotTaken (s : State) (k : Nat × Nat) : Bool := s.bricks.any fun p => p.2.portClaims.any (slotsMeet k)

/-- A link or collective command (R342, R343, R347); the causes of R145 come before those of R347 (R351, log entry 47). Its words are
checked whatever its guard reads, but for the peer's word of an LSEND or LRECV whose guard reads false (R40, R360; log entry 22). -/
def linkCommand (opc : Nat) (o : EnOp) (s : State) : State :=
  let x := s.cur
  let live := guardTrue x o.g
  let n := if opc = 0x20 || opc = 0x21 then 2 else 3
  let h := Held.fresh opc (enWord x o 0) (enWord x o 1) (if n = 3 then enWord x o 2 else 0) s.issue.pc s.issue.issue
  let s0 := s.foundIf (live && enUe x o n) 0x0B 39
  if !(linkLocal h && ((!live && n == 2) || linkPeers h)) then s0.foundAt 0x01 39
  else if !live then s
  else
    let start := enStart x o
    let pc := s.ct + untilStart x start
    let d32 := (h.aOut + 2 ^ 32 - s.lp h.dstRank % 2 ^ 32) % 2 ^ 32
    let diff := (d32 + 2 ^ 32 - pc % 2 ^ 32) % 2 ^ 32
    let late := decide (2 ^ 31 ≤ diff) || decide (diff < (h.count - 1) / 2 + 16)
    let dep := pc + diff
    let port := s.portTo h.dstRank
    let slots := if h.sends then (port, dep) :: (if h.crit then [(port, dep + s.rt h.dstRank)] else []) else []
    let peers := (if h.sends then [h.dstRank] else []) ++ (if h.takes then [h.srcRank] else [])
    let beats := (h.count - 1) / 2
    let s1 := s0.admitTimed o (beats + 1) (beats + 8) { h with course := dep, done := !h.sends }
    let s2 := match peers.find? fun r => !s.peerOk r with
      | some r => s1.foundAt 0x0D 39 [(0x02A, lnfWord s 3 opc r)]
      | none => s1
    let s3 := s2.foundIf (h.sends && late) 0x04 39 [(0x02A, lnfWord s 1 opc h.dstRank)]
    let s4 := s3.foundIf (!(h.sends && late) && slots.any s.slotTaken) 0x04 39 [(0x02A, lnfWord s 2 opc h.dstRank)]
    s4.onCur fun x => { x with portClaims := x.portClaims ++ slots }

/-- LSEND (R344). -/
def execLsend (o : EnOp) (s : State) : Host.Outcome State Fault Refusal := .next (linkCommand 0x20 o s)
/-- LRECV (R344). -/
def execLrecv (o : EnOp) (s : State) : Host.Outcome State Fault Refusal := .next (linkCommand 0x21 o s)
/-- CRED.F32 (R348). -/
def execCredF32 (o : EnOp) (s : State) : Host.Outcome State Fault Refusal := .next (linkCommand 0x30 o s)
/-- CRED.BF16 (R348). -/
def execCredBf16 (o : EnOp) (s : State) : Host.Outcome State Fault Refusal := .next (linkCommand 0x31 o s)
/-- CBCAST (R344). -/
def execCbcast (o : EnOp) (s : State) : Host.Outcome State Fault Refusal := .next (linkCommand 0x32 o s)
/-- CGATH (R344). -/
def execCgath (o : EnOp) (s : State) : Host.Outcome State Fault Refusal := .next (linkCommand 0x33 o s)

/-- The take window in 32-bit Course time (R345). -/
def inWindow (s : State) (a rt : Nat) (crit : Bool) : Bool :=
  (s.ct + 2 ^ 33 - a - (if crit then rt else 0)) % 2 ^ 32 ≤ 63

/-- The flit that a command takes: by source rank and arrival cycle, on the port of its source (R345). -/
def State.heldFlit (s : State) (h : Held) : Option Flit :=
  s.landing.find? fun f => f.srcRank == h.srcRank && f.arrive % 2 ^ 32 == h.aIn && f.crcOk && f.port == s.portTo h.srcRank

/-- Line number of the first incoming line of a command. -/
def Held.firstIn (h : Held) : Nat := if h.opc = 0x33 then h.lines else 0

/-- A count of LNKRETRY (R409). -/
def satAddField (v lo n : Nat) : Nat := v - fld v lo 32 * 2 ^ lo + min (fld v lo 32 + n) 0xFFFFFFFF * 2 ^ lo

/-- A beat takes incoming lines: the causes in the order 5, 7 or 8, 6 (R345, R347). -/
def State.takeLines (s : State) (b : Nat) (h : Held) : State :=
  let x := s.brick b
  let t := x.now
  let ks := (List.range h.count).filter fun k => h.firstIn ≤ k && h.beat k = t
  if !h.takes || h.cancelled || ks.isEmpty then s
  else
    let reg (cause : Nat) : List (Nat × Word) := [(0x02A, lnfWord s cause h.opc h.srcRank)]
    let first := ks.contains h.firstIn
    if !inWindow s h.aIn (s.rt h.srcRank) h.critIn then s.failHeld b h 0x04 (reg 5)
    else match s.heldFlit h with
      | none =>
        if h.critIn then
          let port := s.portTo h.srcRank
          let s1 := s.onBrick b fun x => onHeld x h.p fun h => { h with cancelled := true }
          ({ s1 with mason := { s1.mason with failCount := tput 0 s1.mason.failCount port (satAdd32 (tget 0 s1.mason.failCount port) 1) } }).courseSlip
            b 63 (reg 8) true
        else s.failHeld b h 0x0D (reg 7)
      | some f =>
        if first && (f.dstBrick ≠ b || f.lines.length ≠ h.linIn || f.crit != h.critIn) then s.failHeld b h 0x02 (reg 6)
        else s.onBrick b fun x => ks.foldl (fun x k =>
          gotLine x h.p (100 + k) (f.lines.getD (k - h.firstIn) 0) false t) x

/-- The held command that starts at p, as it stands now. -/
def State.heldNow (s : State) (b : Nat) (h : Held) : Held := ((s.brick b).held.find? fun g => g.p == h.p).getD h

/-- A critical flit that a beat of this cycle takes has failed twice: the slip comes before any effect of a command (R347 cause 8, R352). -/
def State.failTakes (s : State) (b : Nat) : State :=
  (s.brick b).held.foldl (fun s h =>
    if h.isLink && h.critIn && (s.heldFlit h).isNone && inWindow s h.aIn (s.rt h.srcRank) true then s.takeLines b (s.heldNow b h) else s) s

/-- The ring lines that a link command reads at beat + 1 (R143, R344). -/
def State.linkReads (s : State) (b : Nat) (h : Held) : State :=
  let t := (s.brick b).now
  let reads := h.opc == 0x20 || h.isCred || h.opc == 0x33
  if !reads || h.cancelled then s
  else ((List.range h.lines).filter fun k => h.beat k + 1 = t).foldl (fun s k =>
    let r := s.ringRead b (h.addr + 64 * k) 64
    r.2.2.onBrick b fun x => gotLine x h.p k (bytesLine r.1) r.2.1 (t + 2)) s

/-- A poisoned ring line reaches the engine (R344). -/
def State.linkPoison (s : State) (b : Nat) (h : Held) : State :=
  if !h.cancelled && h.got.any fun g => g.poison && g.at' = (s.brick b).now then s.failHeld b h 0x0B [] else s

/-- A line that the engine holds: the local line k, or the incoming line at place k. -/
def Held.gotAt (h : Held) (k : Nat) : Line := ((h.got.find? fun g => g.k == k).map (·.data)).getD 0

/-- The dither matrix at size 2^k (R234). -/
def dither : Nat → Nat → Nat → Nat
  | 0, _, _ => 0
  | k + 1, u, v =>
    4 * dither k (u % 2 ^ k) (v % 2 ^ k) +
      (match u / 2 ^ k, v / 2 ^ k with | 0, 0 => 0 | 0, _ => 2 | _, 0 => 3 | _, _ => 1)

/-- W from ordered dither (R234). -/
def ditherWord (seed h x : Nat) : Nat :=
  let u := (x / 16 % 16 + h + fld seed 0 4) % 16
  let v := (x % 16 + 3 * h + fld seed 4 4) % 16
  dither 4 u v * 256 + 128

/-- W from the hash (R235). -/
def hashWord (seed h d16 : Nat) : Nat :=
  let x := (d16 * 2 ^ 16 ||| h % 2 ^ 16) ^^^ (seed % 2 ^ 32)
  let x := (x ^^^ (x / 2 ^ 16)) * 0x7FEB352D % 2 ^ 32
  let x := (x ^^^ (x / 2 ^ 15)) * 0x846CA68B % 2 ^ 32
  (x ^^^ (x / 2 ^ 16)) % 2 ^ 16

/-- COUNT of RANKINFO: the ranks present (R357). -/
def State.rankCount (s : State) : Nat := (s.ranktbl.filter fun e => fld e.2 12 1 == 1).length

/-- One element of a reduction (R233, R348). -/
def credElem (f : BinFmt) (w : Nat → Nat) (a b : Nat) : Nat × Events :=
  let r := sumVals [f.unpack a, f.unpack b]
  match r.1 with
  | .nan _ => (f.nanBits, .invalid)
  | .inf n => (f.infBits n, r.2)
  | .fin n m e => let q := f.roundStochastic w n m e; (q.1, r.2.or q.2)

/-- The step tag of the task of a brick. -/
def State.steptag (s : State) (b : Nat) : Nat := match (s.brick b).task with | some t => (s.task t).steptag % 2 ^ 32 | none => 0

/-- The result of line k of a CRED by elements (R348). -/
def credLine (s : State) (b : Nat) (h : Held) (k : Nat) : List (Nat × Events) :=
  let x := s.brick b
  let wide := h.opc == 0x30
  let w := if wide then 32 else 16
  let seed := ((sysGet x 0x02B).toNat % 2 ^ 32) ^^^ s.steptag b
  let base := (h.addr + 64 * k) / (w / 8)
  let word (i d16 : Nat) : Nat := if s.rankCount ≤ 64 then ditherWord seed h.hop (base + i) else hashWord seed h.hop d16
  (((elems w (h.gotAt k)).zip (elems w (h.gotAt (100 + k)))).zipIdx).map fun p =>
    credElem (if wide then f32 else bf16) (word p.2) p.1.1 p.1.2

/-- The sum of line k of a CRED as the engine holds it. -/
def Held.sumAt (h : Held) (k : Nat) : Summed := (h.sums.find? fun g => g.k == k).getD ⟨k, 0, .none, 0, false⟩

/-- The lines of a CRED that are ready on this plan cycle are summed and rounded, once (R342, R348; log entry 119). -/
def State.linkSums (s : State) (b : Nat) (h : Held) : State :=
  if !h.isCred || h.cancelled then s
  else ((List.range h.count).filter fun k => h.beat k + 6 = (s.brick b).now).foldl (fun s k =>
    let rs := credLine s b h k
    let g : Summed :=
      { k := k, data := ofElems (if h.opc = 0x30 then 32 else 16) (rs.map (·.1)),
        ev := rs.foldl (fun acc r => acc.or r.2) .none, count := (rs.filter fun r => r.2.any).length,
        first := rs.head?.any fun r => r.2.any }
    s.onBrick b fun x => onHeld x h.p fun h => { h with sums := h.sums ++ [g] }) s

/-- Line k as it is written and sent (R344). -/
def linkLine (h : Held) (k : Nat) : Line :=
  if h.isCred then (h.sumAt k).data
  else if h.opc = 0x20 || (h.opc = 0x33 && k < h.lines) then h.gotAt k
  else h.gotAt (100 + k)

/-- NRM and NRMST of a write (R306). -/
def writeNorm (s : State) (x : Brick) (v : Word) : Brick :=
  sysSet (sysSet x 0x026 v) 0x027 (BitVec.ofNat 64 (1 + s.ct32 * 2 ^ 32))

/-- The norm that a CRED.F32 with NORM sets, and its event (R349). -/
def Held.root (h : Held) : Nat × Events :=
  let e0 := elem 32 (h.sumAt 0).data 0
  if (f32.unpack e0).isNan then (f32.nanBits, .invalid) else sqrtF32 e0

/-- The norm of a collective is set on the write cycle of its line 0, before a UPD that starts on that cycle looks at it; the value
of an MTSR of the same cycle prevails (R308, R349, R352). -/
def State.linkNorm (s : State) (b : Nat) (h : Held) : State :=
  let x := s.brick b
  if h.isCred && h.norm && !h.cancelled && h.beat 0 + 8 = x.now && !(x.mtsr.any fun w => w.1 == 0x026) then
    s.onBrick b fun x => writeNorm s x (BitVec.ofNat 64 (h.root.1 + s.steptag b * 2 ^ 32))
  else s

/-- The record of a collective hop (R350). -/
def credRec (h : Held) : BitVec 128 :=
  pollenRec 0x03 39 h.pc h.issue h.ev (BitVec.ofNat 64 (h.evLines + h.hop * 2 ^ 8 + h.evCount * 2 ^ 32))

/-- The events of line k of a CRED, that of the norm with element 0's, and the elements that raised one, element 0 once (R349, R350; log
entry 119). -/
def Held.lineEvents (h : Held) (k : Nat) : Events × Nat :=
  let g := h.sumAt k
  if h.norm && k = 0 then
    (g.ev.or h.root.2, if h.root.2.any && !g.first then g.count + 1 else g.count)
  else (g.ev, g.count)

/-- The lines of a link command whose write cycle this is, with the record of a collective (R342, R344, R350). -/
def State.linkWrites (s : State) (b : Nat) (h : Held) : State :=
  let t := (s.brick b).now
  if h.cancelled then s
  else ((List.range h.count).filter fun k => h.beat k + 8 = t).foldl (fun s k =>
    let h := ((s.brick b).held.find? fun g => g.p == h.p).getD h
    let local' := !(h.opc = 0x20 || (h.opc = 0x33 && k < h.lines))
    let s1 := if h.wr && local' then
        s.onBrick b fun x => { x with ring := x.ring.writeLine ((h.addr / 64 + k) % 32768) (linkLine h k) false }
      else s
    if !h.isCred then s1
    else
      let e := h.lineEvents k
      let g := { h with
        ev := h.ev.or e.1
        evLines := if e.1.any then h.evLines ||| 2 ^ k else h.evLines
        evCount := h.evCount + e.2 }
      let s2 := s1.onBrick b fun x => onHeld x h.p fun _ => g
      if k + 1 = h.count && g.ev.any then s2.pollen b 39 (credRec g) else s2) s

/-- The flit of a command (R341, R345). -/
def Held.flit (s : State) (h : Held) (retry : Bool) : Flit :=
  { port := s.portTo h.dstRank, srcRank := s.rank, dstRank := h.dstRank, dstBrick := h.dstBrick, arrive := h.aOut, crit := h.crit,
    retry := retry, crcOk := true, lines := (List.range h.count).map fun k => linkLine h k }

/-- A 5-cycle slot lies within the frame columns of a mask (R406). -/
def slotAdmitted (data c : Nat) : Bool := fld data (c % 4096 / 256) 1 == 1 && fld data ((c + 4) % 4096 / 256) 1 == 1

def Held.isUpdate (h : Held) : Bool := h.opc == 0x40 || h.opc == 0x41

/-- A sender that writes no line and no record of its own: its last effect is on the link (R342, R350). -/
def Held.silent (h : Held) : Bool := h.sends && !h.wr && !h.isCred

/-- A timed command has had its last effect (R142, R299, R330, R342). -/
def Held.finished (h : Held) (now : Nat) : Bool :=
  h.cancelled ||
    (if h.isCopy then decide (h.fin ≤ now)
    else if h.isLink then (decide (h.fin ≤ now) || h.silent) && h.done && !(h.sends && h.crit)
    else if h.isUpdate then decide (h.occ ≤ now)
    else false)

/-- TXDENY counts a flit that is refused (R406). -/
def State.refuseFlit (s : State) (port : Nat) : State :=
  { s with mason := { s.mason with txdeny := tput 0 s.mason.txdeny port (min (tget 0 s.mason.txdeny port + 1) 0xFFFF) } }

/-- SENDER_READY_CHECK at D - 10, of a parked task's command too (R347 cause 4, R388). -/
def execSenderReadyCheck (b : Nat) (s : State) : Host.Outcome State Fault Refusal :=
  .next (((s.home b).held.foldl (fun s h =>
    if h.sends && !h.cancelled && h.course = s.ct + 10 && (s.home b).now < h.beat (h.count - 1) + 6 then
      (s.onHome b fun x => onHeld x h.p fun h => { h with cancelled := true }).slipHome b 63
        [(0x02A, lnfWord s 4 h.opc h.dstRank)] true
    else s) s).syncImage b (s.home b))

/-- FLIT_DEPARTURE at D, in admitted columns only; where it was the command's last effect, the command leaves the held copies
(R341, R342, R388, R406). -/
def execFlitDeparture (b : Nat) (s : State) : Host.Outcome State Fault Refusal :=
  .next (((s.home b).held.foldl (fun s h =>
    if h.sends && !h.cancelled && !h.done && h.course = s.ct then
      let port := s.portTo h.dstRank
      let adm := tget 0 s.mason.admitReg port
      if slotAdmitted adm s.ct && (!h.crit || slotAdmitted adm (s.ct + s.rt h.dstRank)) then
        (s.emit (.flit s.ct (s.lp h.dstRank) (h.flit s false))).onHome b fun x =>
          let y := onHeld x h.p fun h => { h with done := true }
          { y with held := y.held.filter fun g => !(g.p == h.p && g.isLink && g.finished x.now) }
      else (s.refuseFlit port).failHome b h 0x04 [(0x02A, lnfWord s 2 h.opc h.dstRank)]
    else s) s).syncImage b (s.home b))

/-- The retry of a command's critical flit is asked for. -/
def Held.nakFor (h : Held) (rank aOut : Nat) : Bool := h.sends && h.crit && h.dstRank = rank && h.aOut = aOut % 2 ^ 32

/-- NAK_ARRIVAL: the retry of the critical flit that left for a rank and names an arrival cycle is scheduled, of a parked task's command
too (R345, R346, R388). -/
def execNakArrival (rank aOut : Nat) (s : State) : Host.Outcome State Fault Refusal :=
  let mark (x : Brick) : Brick := { x with held := x.held.map fun h => if h.nakFor rank aOut then { h with nak := true } else h }
  let s1 := { s with bricks := s.bricks.map fun (q : Nat × Brick) => (q.1, mark q.2) }
  .next (((s1.homesWith fun x => x.held.any fun h => h.nakFor rank aOut).filter (768 ≤ ·)).foldl (fun s n =>
    (s.onHome n mark).syncImage n (s.home n)) s1)

/-- A critical command whose retry slot begins on this Course cycle (R346). -/
def Held.retryDue (s : State) (h : Held) : Bool := h.sends && h.crit && h.done && !h.cancelled && h.course + s.rt h.dstRank == s.ct

/-- FLIT_RETRY at D + Rt after a NAK, in the columns then admitted (R346, R388, R406, R409). -/
def execFlitRetry (b : Nat) (s : State) : Host.Outcome State Fault Refusal :=
  .next (((s.home b).held.foldl (fun s h =>
    if h.retryDue s && h.nak then
      let port := s.portTo h.dstRank
      if slotAdmitted (tget 0 s.mason.admitReg port) s.ct then
        { s.emit (.flit s.ct (s.lp h.dstRank) (h.flit s true)) with
          mason := { s.mason with retryCount := tput 0 s.mason.retryCount port (satAdd32 (tget 0 s.mason.retryCount port) 1) } }
      else (s.refuseFlit port).failHome b h 0x04 [(0x02A, lnfWord s 2 h.opc h.dstRank)]
    else s) s).syncImage b (s.home b))

/-- RETRY_SLOT_END: the command leaves the held copies when its retry slot ends (R342, R346, R388). -/
def execRetrySlotEnd (b : Nat) (s : State) : Host.Outcome State Fault Refusal :=
  .next ((s.onHome b fun x =>
    { x with held := x.held.filter fun h => !(h.sends && h.crit && h.done && h.course + s.rt h.dstRank + 4 ≤ s.ct &&
        (h.fin < x.seq.clk || h.silent)) }).syncImage b (s.home b))

/-- A flit that has failed for the receiver sends a NAK at A + 1, once; one that comes after its A was absent at A (R346). -/
def State.sendNak (s : State) (f : Flit) : State :=
  let wait := (f.arrive + 2 ^ 32 - s.ct32) % 2 ^ 32
  if f.crit && !f.retry && wait < 2 ^ 31 then s.emit (.nak f.port f.srcRank (f.arrive % 2 ^ 32) (s.ct + wait + 1)) else s

/-- A flit was absent at its A, a retry at its A + Rt (R346). -/
def State.absent (s : State) (f : Flit) : Bool :=
  let past := (s.ct32 + 2 ^ 32 - (f.arrive + if f.retry then s.rt f.srcRank else 0) % 2 ^ 32) % 2 ^ 32
  0 < past && past < 2 ^ 31

/-- FLIT_ARRIVAL: a flit reaches the landing buffer; one with no valid source is dropped, one that finds the buffer full, fails its
CRC or comes after its cycle has failed (R341, R345, R346). -/
def execFlitArrival (f : Flit) (s : State) : Host.Outcome State Fault Refusal :=
  .next (if !s.peerOk f.srcRank || f.port ≠ s.portTo f.srcRank then s
    else if !f.crcOk || s.absent f || 32 ≤ (s.landing.filter fun g => g.port = f.port).length then s.sendNak f
    else { s with landing := s.landing ++ [f] })

/-- FLIT_ABSENT: at A the receiver finds that a critical flit it expects is absent, of a parked task's command too (R346, R388). -/
def execFlitAbsent (b : Nat) (s : State) : Host.Outcome State Fault Refusal :=
  .next ((s.home b).held.foldl (fun s h =>
    if h.takes && h.critIn && !h.cancelled && h.aIn = s.ct32 && (s.heldFlit h).isNone &&
        !(s.out.contains (.nak (s.portTo h.srcRank) h.srcRank h.aIn (s.ct + 1))) then
      s.emit (.nak (s.portTo h.srcRank) h.srcRank h.aIn (s.ct + 1))
    else s) s)

/-- TAKE_WINDOW_END: flits whose window ends with this cycle are dropped (R345). -/
def execTakeWindowEnd (s : State) : Host.Outcome State Fault Refusal :=
  .next { s with
    landing := s.landing.filter fun f =>
      let last := f.arrive + (if f.crit then s.rt f.srcRank else 0) + 63
      2 ^ 31 ≤ (s.ct + 2 ^ 33 - last % 2 ^ 32) % 2 ^ 32 }

end Sys2Proof.Machine
end

