-- ==== Sys2Proof/Machine/Channel.lean ====
section
/-! DEFINITION. The channel controller: owned cycles and runs, the timing rules, claimed slots, run ends, timeline violations
and the stop of a task's timelines (R78, R79, R84 to R86, R90, R95, R100, R105, R296). -/

namespace Sys2Proof.Machine

/-- The frame columns in which a partition's timelines own cycles: not its Hod and save columns (R78, R283, R393). -/
def Part.owned (p : Part) : Nat := p.fcol &&& (0xFFFF - ((p.hodcol ||| p.savcol) % 2 ^ 16))

/-- The frame column of a Course cycle (R78). -/
def columnOf (c : Nat) : Nat := c / 256 % 16

/-- A mask of frame columns holds the column of a cycle. -/
def inColumns (m c : Nat) : Bool := fld m (columnOf c) 1 == 1

/-- Columns that follow column k in a mask without a break, up to n of them. -/
def columnsAfter (m : Nat) : Nat → Nat → Nat
  | 0, _ => 0
  | n + 1, k => if fld m ((k + 1) % 16) 1 = 1 then 1 + columnsAfter m n (k + 1) else 0

/-- Columns that come before column k in a mask without a break, up to n of them. -/
def columnsBefore (m : Nat) : Nat → Nat → Nat
  | 0, _ => 0
  | n + 1, k => if fld m ((k + 15) % 16) 1 = 1 then 1 + columnsBefore m n ((k + 15) % 16) else 0

/-- The run end of an owned cycle; none where all 16 columns are owned (R79). -/
def runEnd (m c : Nat) : Option Nat :=
  if m % 2 ^ 16 = 0xFFFF then none else some ((c / 256 + columnsAfter m 15 (columnOf c)) * 256 + 255)

/-- The cycles lo to hi lie within one run of a mask (R296). -/
def withinRun (m lo hi : Nat) : Bool :=
  inColumns m lo && (match runEnd m lo with | some e => decide (hi ≤ e) | none => true)

/-- The end of the run that a task's timelines are held to: the run end, or the cycle they stop on (R81, R86). -/
def State.taskRunEnd (s : State) (t : Nat) : Option Nat :=
  match runEnd (s.part (s.task t).part).owned s.ct with
  | some e => some e
  | none => (s.task t).tlStopAt

/-- Fewer than n cycles have passed since an event. -/
def recent (t : Option Nat) (at' n : Nat) : Bool := match t with | some x => decide (at' < x + n) | none => false

/-- Commands by opcode (R82); an all-bank REF is 16. -/
def cRef : Nat := 9
def cRefAll : Nat := 16

def isColumn (k : Nat) : Bool := 2 ≤ k && k ≤ 6
def isWriteCmd (k : Nat) : Bool := k == 3 || k == 4 || k == 5
def isReadCmd (k : Nat) : Bool := k == 2 || k == 6

/-- The banks that a command acts on. -/
def cmdBanks (k bank : Nat) : List Nat := if k = 8 || k = cRefAll then List.range 80 else [bank]

/-- The rules 1 to 14 and 16 that a command breaks at a cycle, in the order of their codes (R84). `lost` leaves the state of a
lost bank out for WRS (R108). -/
def Channel.broken (c : Channel) (k bank at' : Nat) (lost : Bool := false) : List Nat :=
  let b := c.bank bank
  let col := isColumn k
  let pre := k == 7 || k == 8
  let banks := (cmdBanks k bank).map c.bank
  let opened := banks.filter fun b => b.openRow.isSome
  let hit (code : Nat) (p : Bool) : List Nat := if p then [code] else []
  hit 1 (col && recent b.actAt at' 10) ++
  hit 2 (pre && banks.any fun b => recent b.actAt at' 24) ++
  hit 3 ((k == 1 || k == cRef || k == cRefAll || k == 10) && banks.any fun b => recent b.preAt at' 10) ++
  hit 4 (k == 1 && recent b.actAt at' 34) ++
  hit 5 (k == 1 && c.acts.any fun a => at' < a + 2) ++
  hit 6 (k == 1 && 4 ≤ (c.acts.filter fun a => at' < a + 16).length) ++
  hit 7 (col && recent c.colAt at' (if c.colWrb then 8 else 4)) ++
  hit 8 (isWriteCmd k && recent c.rdAt at' 6) ++
  hit 9 (isReadCmd k && recent c.wrAt at' 8) ++
  hit 10 (pre && opened.any fun b => recent b.rdAt at' 4) ++
  hit 11 (pre && opened.any fun b => recent b.wrAt at' 12) ++
  hit 12 (banks.any fun b => recent b.refAt at' 112) ++
  hit 13 (recent c.refAllAt at' 250) ++
  hit 14 ((banks.any fun b => recent b.rswAt at' 96) || (col && recent c.rswAt at' 64)) ++
  hit 16 ((k == 1 && b.openRow.isSome) || (col && b.openRow.isNone && !lost) ||
    ((k == cRef || k == 10 || k == cRefAll) && !opened.isEmpty))

/-- The last cycle of the data bus of the last column command (R74, R83). -/
def Channel.busEnd (c : Channel) : Nat := match c.colAt with | some a => a + (if c.colWrb then 7 else 3) | none => 0

/-- Two ranges of cycles meet. -/
def spansMeet (lo hi lo' hi' : Nat) : Bool := lo ≤ hi' && lo' ≤ hi

/-- The rule that data-bus cycles lo to hi break on a channel: a shadow slot, or a slot of an atomic (R100, R296). -/
def Channel.busClaim (c : Channel) (lo hi : Nat) : Nat :=
  if c.shadows.any fun x => spansMeet lo hi x.1 (x.1 + 7) then 19
  else if c.aslots.any fun x => spansMeet lo hi x.1 (x.1 + x.2 - 1) then 22
  else 0

/-- The rule that a shadow slot from cycle lo breaks: the shadow slot of another parity block, or a slot of an atomic
(R100, R296). -/
def Channel.shadowClaim (c : Channel) (lo bank row col : Nat) : Nat :=
  if c.shadows.any fun x => x.2 ≠ (bank, row, col) && spansMeet lo (lo + 7) x.1 (x.1 + 7) then 19
  else if c.aslots.any fun x => spansMeet lo (lo + 7) x.1 (x.1 + x.2 - 1) then 22
  else 0

/-- Claims whose cycles have passed are gone. -/
def Channel.prune (c : Channel) (at' : Nat) : Channel :=
  { c with
    shadows := c.shadows.filter fun x => at' ≤ x.1 + 7
    aslots := c.aslots.filter fun x => at' < x.1 + x.2
    acts := c.acts.filter fun a => at' < a + 16 }

/-- The trace that a command leaves for the rules (R83, R84). -/
def Channel.note (c : Channel) (k bank at' : Nat) : Channel :=
  let d := { c with lastCmd := some at' }
  let closeBank (b : Bank) : Bank := if b.openRow.isSome then { b with openRow := none, preAt := some at' } else b
  match k with
  | 1 => { (d.onBank bank fun b => { b with actAt := some at' }) with acts := d.acts ++ [at'] }
  | 2 | 6 => { (d.onBank bank fun b => { b with rdAt := some at' }) with colAt := some at', colWrb := false, rdAt := some at' }
  | 3 | 5 => { (d.onBank bank fun b => { b with wrAt := some at' }) with colAt := some at', colWrb := false, wrAt := some at' }
  | 4 =>
    { (d.onBank bank fun b => { b with wrAt := some (at' + 4) }) with
      colAt := some at'
      colWrb := true
      wrAt := some (at' + 4) }
  | 7 => d.onBank bank closeBank
  | 8 => { d with banks := d.banks.map fun p => (p.1, closeBank p.2) }
  | 9 => d.onBank bank fun b => { b with refAt := some at', refreshed := true }
  | 10 => { (d.onBank bank fun b => { b with rswAt := some at' }) with rswAt := some at' }
  | 16 =>
    let e := (List.range 80).foldl (fun (c : Channel) i => c.onBank i fun b => { b with refreshed := true }) d
    { e with refAllAt := some at' }
  | _ => d

/-- Fewer than n cycles from an event have passed by the cycle after e. -/
def lateBy (t : Option Nat) (e n : Nat) : Bool := match t with | some x => decide (e + 1 < x + n) | none => false

/-- A closed bank meets every recovery time by run end e (R86). -/
def Bank.restsBy (b : Bank) (e : Nat) : Bool := !lateBy b.preAt e 10 && !lateBy b.refAt e 112 && !lateBy b.rswAt e 96

/-- The shadow slots on the channel lie within the run (R86). -/
def Channel.shadowsBy (c : Channel) (e : Nat) : Bool := c.shadows.all fun x => decide (x.1 + 7 ≤ e)

/-- The banks are idle and the bus quiet from the cycle after e, and every shadow slot lies within the run (R86). -/
def Channel.quietAt (c : Channel) (e : Nat) : Bool :=
  (c.banks.all fun p => p.2.openRow.isNone && p.2.restsBy e) && !lateBy c.refAllAt e 250 && c.busEnd ≤ e && c.shadowsBy e

/-- The first cycle from `next` on which the timing rules let a PRE close an open bank (R84). -/
def Channel.preFrom (c : Channel) (next : Nat) (b : Bank) : Nat :=
  let after (t : Option Nat) (n : Nat) : Nat := match t with | some x => x + n | none => 0
  max (max (max next (after c.refAllAt 250)) (after b.actAt 24)) (max (after b.rdAt 4) (after b.wrAt 12))

/-- The first cycle from `next` on which one PREA may close every open bank (R84; log entry 104). -/
def Channel.preaFrom (c : Channel) (next : Nat) : Nat :=
  let after (t : Option Nat) (n : Nat) : Nat := match t with | some x => x + n | none => 0
  c.banks.foldl (fun m p =>
    max m (max (max (after p.2.refAt 112) (after p.2.rswAt 96)) (if p.2.openRow.isSome then c.preFrom next p.2 else 0))) next

/-- Some commands from cycle `next` on still leave the banks idle and the bus quiet by run end e: one PREA for all open banks,
or a PRE for each on a cycle of its own (R84, R86). -/
def Channel.closable (c : Channel) (next e : Nat) : Bool :=
  let opened := ((c.banks.map (·.2)).filter fun b => b.openRow.isSome).map (c.preFrom next)
  (c.banks.all fun p => p.2.openRow.isSome || p.2.restsBy e) && !lateBy c.refAllAt e 250 && c.busEnd ≤ e &&
    (opened.isEmpty || c.preaFrom next + 9 ≤ e || opened.all fun r => r + 8 + (opened.filter fun q => decide (r ≤ q)).length ≤ e)

/-- A channel after a command, with the row that an ACT opens open: which one says nothing of its closing. -/
def Channel.noteOpen (c : Channel) (k bank at' : Nat) : Channel :=
  let d := c.note k bank at'
  if k = 1 then d.onBank bank fun b => { b with openRow := some 0 } else d

/-- Rule 17: the command issued at a cycle is the first that makes the condition of run end e unavoidable; `next` is the
first cycle on which another command may follow it (R86; log entry 103). -/
def Channel.breaksRunEnd (c : Channel) (k bank at' next e : Nat) : Bool :=
  (c.closable at' e && !(c.noteOpen k bank at').closable next e) || (k == 4 && decide (e < at' + 103))

/-- The task holds a timeline section and its timelines have not stopped. -/
def State.timelinesRun (s : State) (t : Nat) : Bool := !(s.task t).image.timelines.isEmpty && !(s.task t).tlStopped

/-- Every timeline of a task stops; the banks that it opened and left open are to be closed (R81, R85). -/
def State.stopTimelines (s : State) (t : Nat) (close : Bool) : State :=
  let s1 := ((s.task t).image.timelines).foldl (fun s q =>
    s.onChannel q.1 fun c =>
      { c with
        timelines := c.timelines.map fun l => if l.task = t then { l with running := false } else l
        closing := if close then
            c.closing ++ ((c.banks.filter fun b => b.2.openRow.isSome && b.2.openBy == some t && !(c.closing.any fun x => x.1 = b.1)).map fun b => (b.1, t))
          else c.closing }) s
  s1.onTask t fun k => { k with tlStopped := true }

/-- A fault in Course time delivered to every brick of a task (R85, R378, R389). -/
def State.faultTask (s : State) (t code : Nat) : State :=
  ((s.task t).mask.filter fun b => (s.brick b).task = some t).foldl (fun s b =>
    let x := s.brick b
    s.late b
      { code := code, slot := 63, late := true, replay := false, pc := x.seq.pc, issue := x.seq.issueNo, cycle := s.ct, tcode := 0,
        regs := [], notice := false }) s

/-- The first violation of a partition is kept in HTFSTAT (R95). -/
def State.htfRecord (s : State) (k ch index code : Nat) : State :=
  s.onPart k fun p =>
    if p.htfstat.getLsbD 0 then p
    else { p with
      htfstat := BitVec.ofNat 64 (1 + code % 32 * 2 + ch / 32 * 2 ^ 6 + ch % 32 * 2 ^ 11 + index % 8192 * 2 ^ 16 + s.ct32 * 2 ^ 32) }

/-- A timeline violation, a parity-open or a miss of R90 on a task; nothing once its timelines have stopped (R85). -/
def State.violate (s : State) (t ch index code fault : Nat) : State :=
  if (s.task t).tlStopped then s
  else
    let s1 := (s.htfRecord (s.task t).part ch index code).faultTask t fault
    if (s.task t).image.timelines.isEmpty then s1 else s1.stopTimelines t true

/-- The violation of the timeline command under way (R85). -/
def State.violateHere (s : State) (code : Nat) (fault : Nat := 0x05) : State :=
  s.violate s.time.task s.time.ch s.time.index code fault

/-- A resident task that holds a timeline section receives fault 0x0B, and its timelines stop where they run (R93, R105). -/
def State.loseTask (s : State) (t : Nat) : State :=
  let s1 := s.faultTask t 0x0B
  if s1.timelinesRun t then s1.stopTimelines t true else s1

end Sys2Proof.Machine
end

