-- ==== Sys2Proof/Machine/Bond.lean ====
section
/-! DEFINITION. Bond parity: deltas and parity entries, WRB, WRS and RDX, loss events, the rebuild mark, the queues the Mason
reads (R96 to R115). -/

namespace Sys2Proof.Machine

/-- A poisoned line holds the poison pattern (R77, R99). -/
def settlePoison (ls : List (Line × Bool)) : List (Line × Bool) := ls.map fun l => if l.2 then (poisonLine, true) else l

/-- A delta enters its parity stack's channel: into the pending entry whose read has not performed, or a new one (R101). -/
def State.enterDelta (s : State) (pch bank row col : Nat) (delta : List (Line × Bool)) (shadow task : Nat) : State :=
  s.onChannel pch fun c =>
    if c.parity.any fun e => e.bank = bank && e.row = row && e.col = col && !e.read then
      { c with
        parity := c.parity.map fun e =>
          if e.bank = bank && e.row = row && e.col = col && !e.read then { e with delta := xorLines e.delta delta } else e }
    else
      { c with
        parity := c.parity ++ [{ bank := bank, row := row, col := col, delta := delta, s := shadow, read := false, old := [], task := task }] }

/-- The writes that perform on this Course cycle, with the deltas that enter (R99, R101); a lost bank takes no write. -/
def State.performWrites (s : State) : State :=
  let due := s.pendWrites.filter fun w => w.cycle = s.ct
  let s0 := { s with pendWrites := s.pendWrites.filter fun w => w.cycle ≠ s.ct }
  due.foldl (fun s w =>
    let ch := w.pch % 32
    let s1 := if s.isLost (w.pch / 32) ch w.bank then s else s.writeBlock ⟨w.pch / 32, ch, w.bank, w.row, w.col⟩ w.lines
    if w.emit then s1.enterDelta (32 * parityStack w.row ch + ch) w.bank w.row w.col w.delta w.shadow w.task else s1) s0

/-- A stripe's parity takes deltas while it is held and is not a moved block (R99, R108, R111). -/
def State.takesDelta (s : State) (ch bank row : Nat) : Bool :=
  match s.stripe ch bank row with
  | .bonded => true
  | .dataLost => true
  | _ => false

/-- A stripe is open while a delta of it is pending (R103). -/
def State.stripeOpen (s : State) (ch bank row col : Nat) : Bool :=
  (s.channel (32 * parityStack row ch + ch)).parity.any fun e => e.bank = bank && e.row = row && e.col = col

/-- The rules an application breaks: as a WRB under rules 1, 7, 9, 11 and 16, on the stripe's row (R100, R298). A bank whose ACT issues on
this very cycle is still closed (R100). -/
def State.applicationBroken (s : State) (pch bank row : Nat) : Nat :=
  let c := s.channel pch
  if (c.bank bank).actAt = some s.ct then 16
  else match (c.broken 4 bank s.ct).filter fun k => k == 1 || k == 7 || k == 9 || k == 11 || k == 16 with
  | k :: _ => k
  | [] => if (c.bank bank).openRow = some row then 0 else 16

/-- PARITY_APPLICATION: a channel's parity entries read at S and write at S + 4 (R100, R101). -/
def execParityApplication (ch : Nat) (s : State) : Host.Outcome State Fault Refusal :=
  .next ((s.channel ch).parity.foldl (fun s e =>
    let drop (s : State) : State :=
      s.onChannel ch fun c => { c with parity := c.parity.filter fun f => !(f.bank = e.bank && f.row = e.row && f.col = e.col && f.s = e.s) }
    let p : Place := ⟨ch / 32, ch % 32, e.bank, e.row, e.col⟩
    if !e.read && e.s = s.ct then
      let code := s.applicationBroken ch e.bank e.row
      if code ≠ 0 then (drop (s.violate e.task ch 8191 code 0x05)).tear (ch % 32) e.bank e.row e.col
      else
        let r := s.fetchBlock p
        r.2.onChannel ch fun c =>
          { (c.note 4 e.bank s.ct) with
            parity := c.parity.map fun f =>
              if f.bank = e.bank && f.row = e.row && f.col = e.col && f.s = e.s then { f with read := true, old := r.1 } else f }
    else if e.read && e.s + 4 = s.ct then drop (s.writeBlock p (settlePoison (xorLines e.old e.delta)))
    else s) s)

/-- The timeline of the command under way. -/
def State.timeline (s : State) : Option Timeline := (s.channel s.time.ch).timelines.find? fun l => l.task == s.time.task

/-- The timeline's next command; after the last, the first again, with the pass counter raised (R81). -/
def State.advance (s : State) : State :=
  s.onChannel s.time.ch fun c =>
    { c with
      timelines := c.timelines.map fun l =>
        if l.task = s.time.task then
          (if l.pos + 1 < l.cmds.length then { l with pos := l.pos + 1 } else { l with pos := 0, pass := l.pass + 1 })
        else l }

/-- The checks shared by the commands of a timeline that go to a bank: claimed slots, the rules 1 to 14 and 16, the run end
(R84, R86, R100, R296); then the command performs. A column command in an application's slot breaks rules 7 and 9 beside 19, and the
captions of the diagrams after R115 record 19 (log entry 105). -/
def State.timelineOp (s : State) (k bank : Nat) (lost : Bool) (perform : State → State) : State :=
  let c := s.channel s.time.ch
  let claim := if isColumn k then c.busClaim s.ct (if k = 4 then s.ct + 7 else s.ct + 3) else 0
  if claim ≠ 0 then s.violateHere claim
  else match c.broken k bank s.ct lost with
  | code :: _ => s.violateHere code
  | [] =>
    if (match s.taskRunEnd s.time.task with | some e => c.breaksRunEnd k bank s.ct (s.ct + 1) e | none => false) then s.violateHere 17
    else perform s

/-- A command that issues leaves its trace and the timeline goes on (R83). -/
def State.issued (s : State) (k bank : Nat) : State := (s.onChannel s.time.ch fun c => c.note k bank s.ct).advance

/-- The lines of a write-buffer entry, and its full bit (R90). -/
def Channel.entry (c : Channel) (e : Nat) : WEntry := tget ⟨List.replicate 8 (0, false), false⟩ c.wbuf e

/-- Clear the full bit of an entry (R90). -/
def State.emptyEntry (s : State) (ch e : Nat) : State :=
  s.onChannel ch fun c => { c with wbuf := tins c.wbuf e { c.entry e with full := false } }

/-- WRB (R99, R100, R103, R108). -/
def execWrb (b c e : Nat) (s : State) : Host.Outcome State Fault Refusal :=
  let pch := s.time.ch
  let ch := pch % 32
  let chan := s.channel pch
  let row := (chan.bank b).openRow.getD 0
  let p := parityStack row ch
  if (chan.bank b).openRow.isSome && s.isTorn ch b row c then .next (s.violateHere 21 0x06)
  else
    .next (s.timelineOp 4 b false fun s =>
      let claim := (s.channel (32 * p + ch)).shadowClaim (s.ct + 96) b row c
      let admitted := pch / 32 ≠ p && (match s.stripe ch b row with
        | .bonded => true
        | .dataLost => !s.bond.rebuild
        | _ => false)
      if claim ≠ 0 then s.violateHere claim
      else if !admitted then s.violateHere 20
      else if !(chan.entry e).full then s.violateHere 24 0x04
      else
        let new := settlePoison (chan.entry e).lines
        let r := s.fetchBlock ⟨pch / 32, ch, b, row, c⟩
        let s1 := ((r.2.emptyEntry pch e).issued 4 b).onChannel (32 * p + ch) fun c' =>
          { c' with shadows := c'.shadows ++ [(s.ct + 96, b, row, c)] }
        { s1 with
          pendWrites := s1.pendWrites ++ [{
            cycle := s.ct + 4, pch := pch, bank := b, row := row, col := c, lines := new, delta := xorLines r.1 new, emit := true
            shadow := s.ct + 96, task := s.time.task }] })

/-- A word is a WRS, or an RDX; one with a nonzero zero field is neither (R82, R102, R109). -/
def isSetWord (opc : Nat) (w : BitVec 32) : Bool :=
  match decodeTimeline w.toNat with
  | some (.wrs _ _ _ _) => opc == 5
  | some (.rdx _ _) => opc == 6
  | _ => false

/-- The commands of an opcode that stand on the channels of one number on this cycle: stack and word (R102, R109). -/
def State.setMembers (s : State) (opc ch : Nat) : List (Nat × BitVec 32) :=
  (s.time.cmds.filter fun m => m.1 % 32 = ch && isSetWord opc m.2.2).map fun m => (m.1 / 32, m.2.2)

/-- Bank and col of a command word (R82). -/
def wordBank (w : BitVec 32) : Nat := fld w.toNat 21 7
def wordCol (w : BitVec 32) : Nat := fld w.toNat 19 2
def wordEntry (w : BitVec 32) : Nat := fld w.toNat 13 6
def wordParity (w : BitVec 32) : Bool := w.getLsbD 12

/-- The row that the members of a set name: the row open in the bank of the first of them that is not lost. -/
def State.setRow (s : State) (ch bank : Nat) (ms : List (Nat × BitVec 32)) : Option Nat :=
  match ms.find? fun m => !s.isLost m.1 ch bank with
  | some m => ((s.channel (32 * m.1 + ch)).bank bank).openRow
  | none => none

/-- The members name one bank and col and stand on one open row; a lost bank has no row (R102, R108, R109). -/
def State.setAgrees (s : State) (ch bank row col : Nat) (ms : List (Nat × BitVec 32)) : Bool :=
  ms.all fun m => wordBank m.2 = bank && wordCol m.2 = col &&
    (s.isLost m.1 ch bank || ((s.channel (32 * m.1 + ch)).bank bank).openRow = some row)

/-- The members on the later channels break no rule of their own and their entries are full, so the set performs whole. -/
def State.setReady (s : State) (opc ch bank : Nat) (ms : List (Nat × BitVec 32)) : Bool :=
  ms.all fun m =>
    let c := s.channel (32 * m.1 + ch)
    32 * m.1 + ch < s.time.ch ||
      ((c.broken opc bank s.ct (opc = 5 && s.isLost m.1 ch bank)).isEmpty && c.busClaim s.ct (s.ct + 3) = 0 &&
        (match s.taskRunEnd s.time.task with | some e => !c.breaksRunEnd opc bank s.ct (s.ct + 1) e | none => true) &&
        (opc ≠ 5 || wordParity m.2 || (c.entry (wordEntry m.2)).full))

/-- WRS: one command of a full-stripe write set. The set's command on stack 0 carries the write of the stripe (R102, R103,
R108; log entries 35, 127). -/
def execWrs (b c e p : Nat) (s : State) : Host.Outcome State Fault Refusal :=
  let pch := s.time.ch
  let ch := pch % 32
  let ms := s.setMembers 5 ch
  match s.setRow ch b ms with
  | none => .next (s.timelineOp 5 b (s.isLost (pch / 32) ch b) fun s => s.violateHere 20)
  | some row =>
    if s.stripeOpen ch b row c then .next (s.violateHere 21 0x06)
    else
      .next (s.timelineOp 5 b (s.isLost (pch / 32) ch b) fun s =>
        let st := s.stripe ch b row
        let marks := ms.filter fun m => wordParity m.2
        let good := ms.length == 24 && s.setAgrees ch b row c ms && marks.map (·.1) == [parityStack row ch] &&
          (ms.all fun m => !wordParity m.2 || wordEntry m.2 == 0) && (p == 0 || e == 0) && st != .relaid && !(st == .dataLost && s.bond.rebuild)
        if !good then s.violateHere 20
        else if p = 0 && !((s.channel pch).entry e).full then s.violateHere 24 0x04
        else if !s.setReady 5 ch b ms then s
        else
          let word (k : Nat) : BitVec 32 := ((ms.find? fun m => m.1 == k).map (·.2)).getD 0
          let data := (List.range 23).map fun d =>
            let k := dataStack row ch d
            settlePoison ((s.channel (32 * k + ch)).entry (wordEntry (word k))).lines
          let s1 := if pch / 32 = 0 then s.writeStripe ch b row c data else s
          (if p = 0 then s1.emptyEntry pch e else s1).issued 5 b)

/-- RDX: one command of a reconstruction set. The set's command on its lowest stack puts the block on the lost stack's
read-return path at C + 56 (R103, R108, R109). -/
def execRdx (b c : Nat) (s : State) : Host.Outcome State Fault Refusal :=
  let pch := s.time.ch
  let ch := pch % 32
  let l := s.bond.lstack
  let ms := s.setMembers 6 ch
  match ((s.channel pch).bank b).openRow with
  | none => .next (s.timelineOp 6 b false fun s => s)
  | some row =>
    if s.stripeOpen ch b row c then .next (s.violateHere 21 0x06)
    else
      .next (s.timelineOp 6 b false fun s =>
        let others := (List.range 24).filter (· ≠ l)
        let good := s.stripe ch b row == .dataLost && s.setAgrees ch b row c ms && ms.length == 23 && others.all (fun k => ms.any fun m => m.1 == k)
        if !good then s.violateHere 20
        else if !s.setReady 6 ch b ms then s
        else
          let lead := pch / 32 == (if l = 0 then 1 else 0)
          let s1 := if lead then
              let r := others.foldl (fun (acc : List (List (Line × Bool)) × State) k =>
                let q := acc.2.fetchBlock ⟨k, ch, b, row, c⟩
                (acc.1 ++ [q.1], q.2)) ([], s)
              let alt := (s.readBlock ⟨parityStack row ch, ch, b, row, c⟩)
              r.2.onChannel (32 * l + ch) fun c' =>
                { c' with
                  ret := c'.ret ++ [{
                    issued := s.ct, rdx := true, from' := s.ct + 56, lines := settlePoison (xorBlocks r.1), alt := alt
                    stripe := some (ch, b, row, c) }] }
            else s
          s1.issued 6 b)

/-- A reconstructed block is looked at again on the cycle it reaches the read-return path: torn, it is poison; before the
rebuild mark, it is the block of the parity position (R109). -/
def State.settleReturns (s : State) : State :=
  { s with
    channels := s.channels.map fun q => (q.1, { q.2 with
      ret := q.2.ret.map fun r =>
        match r.stripe with
        | some (ch, b, row, c) =>
          if r.from' ≠ s.ct then r
          else if s.isTorn ch b row c then { r with lines := List.replicate 8 (poisonLine, true), stripe := none }
          else if s.belowMark ch b row c then { r with lines := r.alt, stripe := none }
          else { r with stripe := none }
        | none => r }) }

/-- READ_RETURN_DROP: blocks whose 64-cycle hold has ended are dropped (R89). -/
def execReadReturnDrop (ch : Nat) (s : State) : Host.Outcome State Fault Refusal :=
  .next (s.onChannel ch fun c => { c with ret := c.ret.filter fun r => s.ct < r.from' + 63 })

/-- The nonzero step tags of the resident tasks, each once (R355, R369). -/
def State.stepTags (s : State) : List Nat :=
  ((s.tasks.filter fun t => t.2.resident && t.2.steptag != 0).map (·.2.steptag)).foldl (fun l t => withElem t l) []

/-- A loss event: a bank, or a whole stack, joins the lost set (R105, R112, R113, R287; the reports' order: log entry 129). -/
def State.lose (s : State) (stack : Nat) (one : Option (Nat × Nat)) : State :=
  let banks := match one with
    | some cb => [cb]
    | none => (List.range 32).flatMap fun (ch : Nat) => (List.range 80).map fun (b : Nat) => (ch, b)
  let bonded := s.bondMode.toNat % 4 == 0
  let s1 : State := { s with
    bond := { s.bond with
      lstack := if bonded then stack else s.bond.lstack
      double := s.bond.double || (!bonded && stack != s.bond.lstack)
      second := if !bonded && stack ≠ s.bond.lstack then withElem stack s.bond.second else s.bond.second
      losscyc := s.ct32 } }
  let s2 := banks.foldl (fun s q =>
    s.onChannel (32 * stack + q.1) fun c => c.onBank q.2 fun b =>
      if b.cracked then b else { b with cracked := true, relaid := false, openRow := none }) s1
  let s3 := (s2.tasks.filter fun t => t.2.resident && !t.2.image.timelines.isEmpty).foldl (fun s t => s.loseTask t.1) s2
  let pend := s3.channels.flatMap fun q => q.2.parity.map fun e => (q.1 % 32, e.bank, e.row, e.col)
  let way := (s3.pendWrites.filter (·.emit)).map fun w => (w.pch % 32, w.bank, w.row, w.col)
  let s4 : State := { s3 with
    channels := s3.channels.map fun q => (q.1, { q.2 with parity := [] })
    pendWrites := s3.pendWrites.map fun w => { w with emit := false } }
  let s5 := (pend ++ way).foldl (fun s q => s.tear q.1 q.2.1 q.2.2.1 q.2.2.2) s4
  let l := s5.bond.lstack
  let s6 : State := { s5 with
    channels := s5.channels.map fun q =>
      if q.1 / 32 = l then (q.1, { q.2 with torn := q.2.torn.filter fun m => !(q.2.bank m.1).cracked }) else q
    bricks := s5.bricks.map fun q => (q.1, loseHod q.2)
    tasks := s5.tasks.map fun t => (t.1, { t.2 with saved := t.2.saved.map fun q => (q.1, loseHod q.2) }) }
  (s6.stepTags.foldl (fun s tag => s.sendNotice tag s.rank) s6).emit (.retirement stack)

/-- LOSS_EVENT (R105). -/
def execLossEvent (stack : Nat) (one : Option (Nat × Nat)) (s : State) : Host.Outcome State Fault Refusal := .next (s.lose stack one)

/-- The rebuild mark of a channel number as its fields (R115). -/
def rbWord (bank row col : Nat) (active : Bool) : Nat := bank % 128 + row % 2 ^ 14 * 2 ^ 7 + col % 4 * 2 ^ 21 + active.toNat * 2 ^ 23

/-- The first stripe from a place whose parity stack is not L; rows go up by one where it is (R110). -/
def markFrom (l ch row col : Nat) : Nat × Nat := if parityStack row ch = l then (row + 1, 0) else (row, col)

/-- The rebuild mark moves to a place; past the last row the bank is relaid, and ROW and COL read 0 (R110, R112; log entry 128). -/
def State.setMark (s : State) (ch bank row col : Nat) : State :=
  let m := markFrom s.bond.lstack ch row col
  if m.1 ≤ 15257 then { s with bond := { s.bond with rbmark := tput 0 s.bond.rbmark ch (rbWord bank m.1 m.2 true) } }
  else
    let s1 := s.onChannel (32 * s.bond.lstack + ch) fun c => c.onBank bank fun b => { b with relaid := true }
    { s1 with
      bond := { s1.bond with
        rbmark := tput 0 s1.bond.rbmark ch (rbWord bank 0 0 false)
        rebuild := s1.bond.rebuild && s1.bondMode.toNat % 4 ≠ 2 } }

/-- RBMARK_WRITE (R110; log entry 128). -/
def execRbmarkWrite (ch v : Nat) (s : State) : Host.Outcome State Fault Refusal :=
  let bank := v % 128
  let b := (s.channel (32 * s.bond.lstack + ch)).bank bank
  let active := fld (tget 0 s.bond.rbmark ch) 23 1 == 1
  .next (if !b.cracked || b.relaid || active then s
    else if fld v 23 1 = 1 then s.setMark ch bank 0 0
    else { s with bond := { s.bond with rbmark := tput 0 s.bond.rbmark ch (rbWord bank 0 0 false) } })

/-- The rebuild write: it names the stripe at the mark and stands on that stripe's parity stack (R110). -/
def State.isRebuild (s : State) (pch bank row col : Nat) : Bool :=
  tget 0 s.bond.rbmark (pch % 32) == rbWord bank row col true && pch / 32 == parityStack row (pch % 32)

/-- WR: admitted where a stripe has no parity to keep, and as the rebuild write (R83, R108, R110). -/
def execWr (b c e : Nat) (s : State) : Host.Outcome State Fault Refusal :=
  let pch := s.time.ch
  let ch := pch % 32
  let chan := s.channel pch
  let row := (chan.bank b).openRow.getD 0
  .next (s.timelineOp 3 b false fun s =>
    let st := s.stripe ch b row
    let rebuild := st == .dataLost && s.isRebuild pch b row c
    if !(st == .parityLost || st == .relaid || rebuild) then s.violateHere 20
    else if !(chan.entry e).full then s.violateHere 24 0x04
    else
      let s1 := ((s.writeBlock ⟨pch / 32, ch, b, row, c⟩ (settlePoison (chan.entry e).lines)).emptyEntry pch e).issued 3 b
      if rebuild then (s1.untear ch b row c).setMark ch b (if c = 3 then row + 1 else row) (if c = 3 then 0 else c + 1) else s1)

/-- The halves of a 128-bit queue register: the upper one removes the entry (R96, R115). -/
def popHalf (upper : Bool) (q : List (BitVec 128)) : Nat × List (BitVec 128) :=
  match q with
  | [] => (0, [])
  | e :: rest => if upper then (e.toNat / 2 ^ 64, rest) else (e.toNat % 2 ^ 64, q)

/-- FAQPOP_READ (R96). -/
def execFaqpopRead (upper : Bool) (s : State) : Host.Outcome State Fault Refusal :=
  let r := popHalf upper s.faq
  .next { s with faq := r.2, reads := BitVec.ofNat 256 r.1 }

/-- TORNPOP_READ (R115). -/
def execTornpopRead (upper : Bool) (s : State) : Host.Outcome State Fault Refusal :=
  let r := popHalf upper s.bond.reports
  .next { s with bond := { s.bond with reports := r.2 }, reads := BitVec.ofNat 256 r.1 }

end Sys2Proof.Machine
end

