-- ==== Sys2Proof/Machine/Timeline.lean ====
section
/-! DEFINITION. The timeline commands, refresh, row swaps, bad pages, and the controllers' own PREs (R81 to R96). -/

namespace Sys2Proof.Machine

/-- An ACT of a row as the hot-row tracker counts it: entries that no row has taken have count 0 (R92). -/
def trackRow (tracker : List (Nat × Nat)) (row : Nat) : List (Nat × Nat) :=
  if tracker.any fun e => e.1 = row then tracker.map fun e => if e.1 = row then (e.1, e.2 + 1) else e
  else if tracker.length < 8 && !(tracker.any fun e => e.2 = 0) then tracker ++ [(row, 1)]
  else
    let low := tracker.foldl (fun m e => min m e.2) ((tracker.headD (0, 0)).2)
    match tracker.findIdx? fun e => e.2 = low with
    | some i => tracker.set i (row, low + 1)
    | none => tracker

/-- ACT: the row after its step, the indirection table's two copies, the tracker (R83, R92, R93, R108). -/
def execAct (b r st : Nat) (s : State) : Host.Outcome State Fault Refusal :=
  let pch := s.time.ch
  let pass := match s.timeline with | some l => l.pass | none => 0
  let row := if st = 1 then (r + pass * (s.part (s.task s.time.task).part).htstep) % 15258 else r
  .next (s.timelineOp 1 b false fun s =>
    let bk := (s.channel pch).bank b
    let p : Place := ⟨pch / 32, pch % 32, b, row, 0⟩
    if bk.cracked then s.loseTask s.time.task
    else match tget 0 bk.copyErr row with
      | 0 => (s.issued 1 b).onChannel pch fun c => c.onBank b fun k => { k with openRow := some row, openBy := some s.time.task, tracker := trackRow k.tracker row }
      | 1 =>
        ((s.faqPush 2 p).issued 1 b).onChannel pch fun c => c.onBank b fun k =>
          { k with openRow := some row, openBy := some s.time.task, tracker := trackRow k.tracker row, copyErr := tdel k.copyErr row }
      | _ => (s.faqPush 3 p).lose (pch / 32) (some (pch % 32, b)))

/-- RD: the block reaches the read-return path at C + 48 (R77, R83, R89). -/
def execRd (b c : Nat) (s : State) : Host.Outcome State Fault Refusal :=
  let pch := s.time.ch
  .next (s.timelineOp 2 b false fun s =>
    let row := ((s.channel pch).bank b).openRow.getD 0
    let r := s.fetchBlock ⟨pch / 32, pch % 32, b, row, c⟩
    (r.2.issued 2 b).onChannel pch fun ch =>
      { ch with
        ret := ch.ret ++ [{ issued := s.ct, rdx := false, from' := s.ct + 48, lines := r.1, alt := [], stripe := none }] })

/-- The bank that the command names is lost: PRE, REF and RSW are legal there and do nothing (R108). -/
def State.lostBank (s : State) (b : Nat) : Bool := ((s.channel s.time.ch).bank b).cracked

/-- PRE (R83). -/
def execPre (b : Nat) (s : State) : Host.Outcome State Fault Refusal :=
  .next (if s.lostBank b then s.advance else s.timelineOp 7 b false fun s => s.issued 7 b)

/-- PREA (R83). -/
def execPrea (s : State) : Host.Outcome State Fault Refusal := .next (s.timelineOp 8 0 false fun s => s.issued 8 0)

/-- REF of a bank, or of every bank (R83, R87). On a lost bank the command counts as its REF and does nothing else. -/
def execRef (b a : Nat) (s : State) : Host.Outcome State Fault Refusal :=
  .next (if a = 1 then s.timelineOp cRefAll 0 false fun s => s.issued cRefAll 0
    else if s.lostBank b then
      (s.onChannel s.time.ch fun c => c.onBank b fun k => { k with refreshed := true }).advance
    else s.timelineOp cRef b false fun s => s.issued cRef b)

/-- A physical row that no logical row maps to and that is not bad (R75, R92). -/
def isSpare (b : Bank) (d : Nat) : Bool :=
  d < 16384 && !b.bad.contains d && !(b.rows.any fun e => e.2 = d) && (15258 ≤ d || (tfind b.rows d).isSome)

/-- The spare row that a generator value stands for: the first one from it upwards, around the bank (R75, R92). -/
def spareFrom (b : Bank) (g : Nat) : Option Nat := ((List.range 16384).map fun i => (g + i) % 16384).find? (isSpare b)

/-- The row that an RSW moves, and whether it is a retirement (R92). -/
def rowToMove (b : Bank) (thresh : Nat) : Option (Nat × Bool) :=
  match b.retire with
  | r :: _ => some (r, true)
  | [] =>
    let top := b.tracker.foldl (fun m e => max m e.2) 0
    if b.tracker.isEmpty || top < thresh then none
    else (b.tracker.find? fun e => e.2 = top).map fun e => (e.1, false)

/-- Rows of a bank exchanged by number, or what stays in place. -/
def exchange (src dst i : Nat) : Nat := if i = src then dst else if i = dst then src else i

/-- The bytes of two physical rows of a bank change places (R92). -/
def State.exchangeRows (s : State) (pch bank src dst : Nat) : State :=
  let lo := (pch * 80 + bank) * 16384
  let mv (a unit : Nat) : Nat :=
    let r := a / unit
    if lo ≤ r && r < lo + 16384 then (lo + exchange src dst (r - lo)) * unit + a % unit else a
  { s with
    hbm := s.hbm.foldl (fun m c => tins m (mv c.1 2048) c.2) []
    hbmUe := s.hbmUe.foldl (fun m l => insNat (mv l 32) m) []
    hbmCe := s.hbmCe.foldl (fun m l => insNat (mv l 32) m) [] }

/-- RSW: reserves the bank and moves at most one row to a spare row; both copies of the row's table entry are looked at, and the
move writes them anew; with no spare row nothing moves (R92, R93, R94; log entry 138). -/
def execRsw (b : Nat) (s : State) : Host.Outcome State Fault Refusal :=
  let pch := s.time.ch
  .next (if s.lostBank b then s.advance
    else s.timelineOp 10 b false fun s =>
      let s1 := s.issued 10 b
      let c := s1.channel pch
      let bk := c.bank b
      match rowToMove bk s.hrht with
      | none => s1
      | some (row, retires) =>
        let src := physRow c b row
        let p : Place := ⟨pch / 32, pch % 32, b, row, 0⟩
        let copies := tget 0 bk.copyErr row
        if 2 ≤ copies then (s1.faqPush 3 p).lose (pch / 32) (some (pch % 32, b))
        else
        let s1 := if copies = 1 then (s1.faqPush 2 p).onChannel pch fun c => c.onBank b fun k => { k with copyErr := tdel k.copyErr row }
          else s1
        match spareFrom bk (Config.rswDestination (pch / 32) (pch % 32) b bk.lfsr) with
        | none => s1
        | some dst =>
          (s1.exchangeRows pch b src dst).onChannel pch fun c => c.onBank b fun k =>
            { k with
              rows := tput row k.rows row dst
              bad := if retires then insNat src k.bad else k.bad
              retire := if retires then k.retire.drop 1 else k.retire
              tracker := if retires then k.tracker else k.tracker.map fun e => if e.1 = row then (e.1, 0) else e
              lfsr := k.lfsr + 1 })

/-- A command that idles the channel breaks rule 17 where no command may follow it in time (R86). -/
def State.idlesTooLong (s : State) (next : Nat) : Bool :=
  match s.taskRunEnd s.time.task with
  | some e => (s.channel s.time.ch).breaksRunEnd 0 0 s.ct next e
  | none => false

/-- GAP: n + 1 owned cycles, this one the first (R83). -/
def execGap (n : Nat) (s : State) : Host.Outcome State Fault Refusal :=
  .next (if s.idlesTooLong (s.ct + n + 1) then s.violateHere 17
  else (s.onChannel s.time.ch fun c =>
    { c with timelines := c.timelines.map fun l => if l.task = s.time.task then { l with idle := n } else l }).advance)

/-- SYNC: issues on the frame cycle it names, and stands until then; one that the partition does not own is a violation, and so is one
that stands too long for the run end, from the first cycle on which it stands (R82, R83, R86; log entries 101, 103). -/
def execSync (f : Nat) (s : State) : Host.Outcome State Fault Refusal :=
  .next (if !inColumns (s.part (s.task s.time.task).part).owned f then s.violateHere 18
    else if s.idlesTooLong (s.ct + (f + 4096 - s.ct % 4096) % 4096 + 1) then s.violateHere 17
    else if s.ct % 4096 ≠ f then s
    else s.advance)

/-- A timeline word that no row of the table holds (R82). -/
def State.timelineBad (s : State) : State := s.violateHere 18

/-- At a run end, and where timelines stop, the channels of the tasks that p names must be idle and quiet (R81, R86). -/
def State.runEnds (s : State) (p : Nat → Bool) : State :=
  s.channels.foldl (fun s q =>
    q.2.timelines.foldl (fun s l =>
      if l.running && p l.task && s.timelinesRun l.task && inColumns (s.part (s.task l.task).part).owned s.ct &&
          s.taskRunEnd l.task = some s.ct && !(s.channel q.1).quietAt s.ct then
        s.violate l.task q.1 l.pos 17 0x05
      else s) s) s

/-- TIMELINE_STOP: a task's timelines stop at the end of its last run (R81). -/
def execTimelineStop (t : Nat) (s : State) : Host.Outcome State Fault Refusal :=
  .next (if (s.task t).tlStopped then s else s.stopTimelines t false)

/-- A bank that an application of the task will still use (R85). -/
def State.heldOpen (s : State) (ch bank task : Nat) : Bool :=
  let c := s.channel ch
  (c.parity.any fun e => e.bank = bank && e.task = task) || (c.atomics.any fun e => e.bank = bank && e.task = task) ||
    (s.pendWrites.any fun w => w.emit && w.task = task && w.bank = bank && 32 * parityStack w.row (w.pch % 32) + w.pch % 32 = ch)

/-- CLOSING_PRE: the controller closes one bank that a stopped task left open, within the task's own columns, on the earliest
cycle that R84 allows (R85). -/
def execClosingPre (ch : Nat) (s : State) : Host.Outcome State Fault Refusal :=
  let c := s.channel ch
  let ready := c.closing.find? fun x =>
    (c.bank x.1).openRow.isSome && inColumns (s.part (s.task x.2).part).owned s.ct && (c.broken 7 x.1 s.ct).isEmpty && !s.heldOpen ch x.1 x.2
  let busy := c.lastCmd == some s.ct
  .next (match ready with
    | some x => if busy then s else s.onChannel ch fun c => { (c.note 7 x.1 s.ct) with closing := c.closing.filter fun y => y.1 ≠ x.1 }
    | none => s.onChannel ch fun c => { c with closing := c.closing.filter fun y => (c.bank y.1).openRow.isSome })

/-- HBM training has ended (R88, R400). -/
def State.trained (s : State) : Bool := s.mason.phase == 3 || s.mason.phase == 4 || (s.mason.phase == 7 && s.mason.fcode == 6)

/-- A task of a partition, running or parked, holds a timeline section for a channel; of two, the first (R88, R369; log entry
154). -/
def State.channelTask (s : State) (k ch : Nat) : Option Nat :=
  (s.tasks.find? fun t => t.2.part = k && (t.2.state = .running || t.2.state = .parked) && t.2.image.timelines.any fun q => q.1 = ch).map (·.1)

/-- The frame column of this cycle is idle on a channel (R88). -/
def State.idleColumn (s : State) (ch : Nat) : Bool :=
  match s.parts.find? fun p => inColumns p.2.fcol s.ct with
  | none => true
  | some p => !(inColumns p.2.hodcol s.ct || inColumns p.2.savcol s.ct) && (s.channelTask p.1 ch).isNone

/-- Some bank of a channel has had no REF in the frame (R88). -/
def Channel.unrefreshed (c : Channel) : Bool := (List.range 80).any fun i => !(c.bank i).refreshed

/-- IDLE_REFRESH: one all-bank REF in an idle column, on the first cycle that R84 allows and that still ends within it
(R88). -/
def execIdleRefresh (ch : Nat) (s : State) : Host.Outcome State Fault Refusal :=
  let c := s.channel ch
  .next (if s.trained && s.idleColumn ch && s.ct % 256 + 250 ≤ 256 && c.unrefreshed && (c.broken cRefAll 0 s.ct).isEmpty &&
      c.lastCmd != some s.ct then
      s.onChannel ch fun c => c.note cRefAll 0 s.ct
    else s)

/-- The index of the next command of a task's timeline. -/
def Channel.nextIndex (c : Channel) (t : Nat) : Nat :=
  match c.timelines.find? fun (l : Timeline) => l.task == t with
  | some l => l.pos
  | none => 0

/-- REFRESH_MISS: at a frame's last cycle the banks without a REF are counted and recorded, one that also missed the frame
before is cracked, and the task answerable for refresh takes rule 15; REFMISS stops at 2^32 - 1 (R87; log entries 153, 154). -/
def execRefreshMiss (ch : Nat) (s : State) : Host.Outcome State Fault Refusal :=
  let c := s.channel ch
  let missed := if s.trained then (List.range 80).filter fun i => !(c.bank i).refreshed else []
  let s1 := missed.foldl (fun s i => s.faqPush 4 ⟨ch / 32, ch % 32, i, 0, 0⟩) s
  let s2 : State := { s1 with refmiss := tput 0 s1.refmiss (ch / 32) (satAdd32 (tget 0 s1.refmiss (ch / 32)) missed.length) }
  let s3 := match s.channelTask s.refown ch with
    | some t => if missed.isEmpty then s2 else s2.violate t ch (c.nextIndex t) 15 0x05
    | none => s2
  let lost := missed.filter fun i => (c.bank i).missedLast && !(c.bank i).cracked
  let s4 := s3.onChannel ch fun c => (List.range 80).foldl (fun (c : Channel) i =>
    c.onBank i fun b => { b with missedLast := missed.contains i, refreshed := false }) c
  .next (lost.foldl (fun s i => s.lose (ch / 32) (some (ch % 32, i))) s4)

/-- BPLADD_WRITE: a bad-page entry and a retirement for the bank's next RSW; refused where the list is full or the bank has no
spare row left for it (R94). -/
def execBpladdWrite (stack ch bank row : Nat) (s : State) : Host.Outcome State Fault Refusal :=
  let b := (s.channel (32 * stack + ch)).bank bank
  let spares := ((List.range 16384).filter (isSpare b)).length
  .next (if 4096 ≤ s.badPages.length || spares ≤ b.retire.length then { s with bplFull := true }
    else { (s.onChannel (32 * stack + ch) fun c => c.onBank bank fun b => { b with retire := b.retire ++ [row] }) with
      badPages := s.badPages ++ [(stack, ch, bank, row)] })

end Sys2Proof.Machine
end

