-- ==== Sys2Proof/Machine/HodWindows.lean ====
section
/-! DEFINITION. The windows of a Hod column: what a brick decides at the start of one, and its commands, cycle by cycle (R283 to
R288, R316). -/

namespace Sys2Proof.Machine

/-- The row groups that a window's units span, in order: bank and row (R283, R284). -/
def Hod.groups (h : Hod) (b : Nat) (w : HodWin) : List (Nat × Nat) :=
  (List.range w.n).foldl (fun gs m =>
    let p := h.unitPlace b (w.first + m)
    if gs.contains (p.bank, p.row) then gs else gs ++ [(p.bank, p.row)]) []

/-- The window writes HBM: a spill, or an HFLUSH up (R285, R286). -/
def HodWin.writes (w : HodWin) : Bool := w.kind == .spill || w.kind == .up

/-- A window's command stands on the channel of every stack whose bank is not lost (R108, R284). -/
def State.windowCmd (s : State) (ch k bank : Nat) (f : Bank → Bank := id) : State :=
  (List.range 24).foldl (fun s st =>
    s.onChannel (32 * st + ch) fun c => if (c.bank bank).cracked then c else (c.note k bank s.ct).onBank bank f) s

/-- The ACT of a row group: on every stack the table's copies are looked at and the tracker counts, as on an ACT of a timeline
(R92, R93, R284). -/
def State.windowAct (s : State) (ch bank row : Nat) : State :=
  (List.range 24).foldl (fun s st =>
    let pch := 32 * st + ch
    let b := (s.channel pch).bank bank
    let p : Place := ⟨st, ch, bank, row, 0⟩
    let copies := tget 0 b.copyErr row
    if b.cracked then s
    else if 2 ≤ copies then (s.faqPush 3 p).lose st (some (ch, bank))
    else
      (if copies = 1 then s.faqPush 2 p else s).onChannel pch fun c =>
        (c.note 1 bank s.ct).onBank bank fun k =>
          { k with openRow := some row, openBy := none, tracker := trackRow k.tracker row, copyErr := tdel k.copyErr row }) s

/-- One data block of a stripe read by a window: corrected errors are counted and an uncorrectable block is queued (R77, R96,
R108, R284). -/
def State.windowBlock (s : State) (ch bank row col d : Nat) : List (Line × Bool) × State :=
  let k := dataStack row ch d
  let st := s.stripe ch bank row
  if st ≠ .bonded && k = s.bond.lstack then
    if st = .relaid then s.fetchBlock ⟨parityStack row ch, ch, bank, row, col⟩ else (List.replicate 8 (0, false), s)
  else s.fetchBlock ⟨k, ch, bank, row, col⟩

/-- The unit's blocks at its RD set; the block of a lost stack waits for the RDX set (R284). -/
def State.windowRead (s : State) (p : Place) : List (Line × Bool) × State :=
  (List.range 23).foldl (fun (acc : List (Line × Bool) × State) d =>
    let r := acc.2.windowBlock p.ch p.bank p.row p.col d
    (acc.1 ++ r.1, r.2)) ([], s)

/-- The RDX set of a data-lost stripe: the surviving blocks are read and the lost one is made from them (R109, R284). -/
def State.windowRdx (s : State) (p : Place) : List (Line × Bool) × State :=
  let s1 := ((List.range 24).filter (· ≠ s.bond.lstack)).foldl (fun s k => (s.fetchBlock ⟨k, p.ch, p.bank, p.row, p.col⟩).2) s
  (s.reconstruct p.ch p.bank p.row p.col (s.belowMark p.ch p.bank p.row p.col), s1)

/-- The lines that a window writes for its unit m: the lowest units of the stream buffer, or the staged ones (R285, R286). -/
def Hod.windowLines (h : Hod) (w : HodWin) (m : Nat) : List (Line × Bool) :=
  if w.kind = .spill then
    wordLines ((List.range unitWords).map fun j =>
      let q := unitWords * (w.first + m) + j
      ((h.core.word q).getD 0, h.core.marked q))
  else (List.range unitLines).map fun i =>
    let l := unitLines * m + i
    (bytesLine ((h.staged.drop (64 * l)).take 64), h.stagedBad.contains l)

/-- BOT rises by the units that still lie wholly below TOP, and the window has moved them (R278, R285). -/
def spillDone (x : Brick) (w : HodWin) : Brick :=
  let c := x.hod.core
  let n := min w.n ((c.top - c.bot) / unitWords)
  { x with
    hod := { x.hod with
      core := { c with words := c.words.take (c.words.length - unitWords * n), bot := c.bot + unitWords * n }
      hbmUnits := x.hod.hbmUnits + n
      win := x.hod.win.map fun v => { v with stopped := true } } }

/-- The last operation in flight that has brought BOT down: a cut whose cycle has come, behind an earlier pop (R270, R278). -/
def Hod.loweredBy (h : Hod) (clk : Nat) : Option Nat :=
  ((List.range h.flights.length).filter fun i =>
    (h.flights.drop i).head?.any (fun f => decide (f.due ≤ clk)) && decide ((h.after (h.flights.take (i + 1))).bot < (h.after (h.flights.take i)).bot)).getLast?

/-- The words of a refill go below the stream buffer's: to the stack, or, where BOT as it shows has been brought down by a cut that waits
behind an earlier pop, to the words that the cut has with it (R270, R278, R285). -/
def Hod.below (h : Hod) (first : Nat) (ws : List (BitVec 16 × Bool)) (cut : Option Nat) : Hod :=
  match cut with
  | some i => { h with flights := setNth h.flights i fun f => { f with held := ws ++ f.held } }
  | none =>
    { h with
      core := { h.core with
        words := h.core.words ++ (ws.map (·.1)).reverse
        bot := unitWords * first
        bad := h.core.bad ++ (ws.zipIdx).filterMap fun q => if q.1.2 then some (unitWords * first + q.2) else none } }

/-- BOT falls: a refill's words are in the stream buffer, and no HFLUSH has its units any more; a lost unit is poison. Units that a cut has
freed since the window's start bring nothing (R278, R285, R287). -/
def refillDone (x : Brick) (w : HodWin) : Brick :=
  let h := x.hod
  let bot := (h.seen (x.seq.clk - 1)).core.bot
  let ws := (lineWords w.lines).zipIdx.map fun q => (q.1.1, q.1.2 || h.lost.contains (w.first + q.2 / unitWords))
  let stop (h : Hod) : Hod := { h with win := h.win.map fun v => { v with stopped := true } }
  { x with
    hod := stop (if bot ≠ unitWords * (w.first + w.n) then h
      else
        { h.below w.first ws (h.loweredBy (x.seq.clk - 1)) with
          hbmUnits := h.hbmUnits - w.n
          lost := h.lost.filter (· < w.first)
          flush := h.flush.map fun f => f.keep w.first }) }

/-- The units that a window has read for an HFLUSH down join the staged ones (R286). -/
def stageUnits (x : Brick) (w : HodWin) (now : Nat) : Brick :=
  let h := x.hod
  let at' := h.staged.length / 64
  { x with
    hod := { h with
      staged := h.staged ++ w.lines.flatMap fun l => lineBytes l.1
      stagedBad := h.stagedBad ++ (w.lines.zipIdx).filterMap fun l =>
        if l.1.2 || h.lost.contains (w.first + l.2 / unitLines) then some (at' + l.2) else none }
    var := { x.var with queue := x.var.queue.map fun c => if c.opc = 11 then { c with since := now } else c } }

/-- The writes of an HFLUSH up have performed: the units of it that are still held lie in HBM (R286). -/
def flushUpDone (x : Brick) : Brick :=
  match x.hod.flush with
  | some f =>
    if f.up then
      let y := endVariable x f.vs 0
      { y with
        hod := { y.hod with
          hbmUnits := y.hod.hbmUnits + f.live, deepUnits := y.hod.deepUnits - f.live, flush := none, staged := [], stagedBad := [] } }
    else x
  | none => x

/-- The reads and writes of a window on this Course cycle: unit m of the set that stands at an offset (R284, R316). -/
def State.windowSet (s : State) (n m : Nat) (w : HodWin) (rdx : Bool) : State :=
  let h := (s.home n).hod
  let p := h.unitPlace n (w.first + m)
  let put (s : State) (i : Nat) (ls : List (Line × Bool)) : State :=
    s.onHome n fun x => { x with hod := { x.hod with win := x.hod.win.map fun v => { v with lines := v.lines.take i ++ ls ++ v.lines.drop (i + ls.length) } } }
  if w.writes then
    let s1 := s.writeStripe p.ch p.bank p.row p.col (unitBlocks (h.windowLines w m))
    s1.windowCmd p.ch (if s.stripe p.ch p.bank p.row = .relaid then 3 else 5) p.bank
  else if rdx then
    if s.stripe p.ch p.bank p.row ≠ .dataLost then s
    else
      let r := s.windowRdx p
      let d := if s.bond.lstack < parityStack p.row p.ch then s.bond.lstack else s.bond.lstack - 1
      put (r.2.windowCmd p.ch 6 p.bank) (unitLines * m + 8 * d) r.1
  else
    let r := s.windowRead p
    put (r.2.windowCmd p.ch 2 p.bank) (unitLines * m) r.1

/-- A window's commands and effects on this Course cycle, counted from its start; a stopped one only closes its banks (R284 to R287;
log entry 114). -/
def State.windowStep (s : State) (n : Nat) : State :=
  let h := (s.home n).hod
  match h.win with
  | none => s
  | some w =>
    let off := s.ct - w.start
    let ch := n % 768 % 32
    let groups := h.groups n w
    let close := if w.writes then 52 else 42
    let last := if w.cracked && !w.writes then 26 + 4 * (w.n - 1) else 10 + 4 * (w.n - 1)
    let s1 := if w.stopped then s
      else
        let a := if off % 2 = 0 then
            match groups[off / 2]? with
            | some g => s.windowAct ch g.1 g.2
            | none => s
          else s
        let b := if 10 ≤ off && (off - 10) % 4 = 0 && (off - 10) / 4 < w.n then a.windowSet n ((off - 10) / 4) w false else a
        if w.cracked && !w.writes && 26 ≤ off && (off - 26) % 4 = 0 && (off - 26) / 4 < w.n then b.windowSet n ((off - 26) / 4) w true
        else b
    let s2 := match groups[off - close]? with
      | some g => if close ≤ off then s1.windowCmd ch 7 g.1 else s1
      | none => s1
    let due := match w.kind with
      | .spill => 42
      | .refill => if w.cracked then 98 else 90
      | _ => last
    let s3 := if off ≠ due then s2
      else s2.onHome n fun x =>
        match x.hod.win with
        | none => x
        | some v =>
          if v.stopped then x
          else match v.kind with
            | .spill => spillDone x v
            | .refill => refillDone x v
            | .down => stageUnits x v s.ct
            | .up => flushUpDone x
    if off < 98 then s3 else s3.onHome n fun x => { x with hod := { x.hod with win := none } }

/-- HOD_WINDOW: at a window's start the brick decides once, with its stack and units as they are seen then (R285). An HFLUSH up
waits while HBM has no free slots for its units (log entry 115). -/
def execHodWindow (b : Nat) (s : State) : Host.Outcome State Fault Refusal :=
  let x := s.brick b
  let h := x.hod.seen (x.seq.clk - 1)
  let c := h.core
  let held := (c.top - c.bot) / unitWords
  let cracked := s.bondMode.toNat % 4 == 1
  let free := h.slots - h.hbmUnits
  let most := if cracked then 4 else 8
  let staged := h.staged.length / 11776
  let go (kind : WinKind) (first n : Nat) : State :=
    (s.onBrick b fun x =>
      { x with
        hod := { x.hod with
          win := some { start := s.ct, kind := kind, first := first, n := n, lines := [], cracked := cracked, stopped := false } } }).windowStep b
  .next (if held > 14 && free ≠ 0 then go .spill (c.bot / unitWords) (min 8 (min (held - 14) free))
    else if c.top - c.bot < 35328 && h.hbmUnits ≠ 0 then go .refill (c.bot / unitWords - min most h.hbmUnits) (min most h.hbmUnits)
    else match h.flush with
      | some f =>
        if f.up then
          (if f.live ≤ free && (x.var.queue.any fun c => c.opc = 11 && c.grans.length = (c.size + 4095) / 4096) then go .up f.first f.live else s)
        else if staged < f.units then go .down (f.first + staged) (min most (f.units - staged)) else s
      | none => s)

/-- The windows under way take their next cycle, of parked tasks too (R285, R288). -/
def State.hodCourse (s : State) : State :=
  (s.homesWith fun x => match x.hod.win with | some w => decide (w.start < s.ct) | none => false).foldl State.windowStep s

end Sys2Proof.Machine
end

