-- ==== Sys2Proof/Machine/Atomics.lean ====
section
/-! DEFINITION. Write-queue atomics and row scope: the line atomics, AROWADD, ROWLD and ROWLDF, their entries, slots and
applications (R294 to R304, R311 to R314, R330). -/

namespace Sys2Proof.Machine

/-- The word of UAFSTAT (R312). -/
def uafWord (s : State) (cause opc : Nat) : Word := BitVec.ofNat 64 (1 + cause * 2 + opc * 2 ^ 4 + s.ct32 * 2 ^ 32)

/-- Line atomics and row commands among the held ones (R295). -/
def Held.isAtomic (h : Held) : Bool := 0x50 ≤ h.opc && h.opc ≤ 0x5A
def Held.isRowRead (h : Held) : Bool := h.opc == 0x59 || h.opc == 0x5A

/-- L of a row command, 1 of a line atomic (R295). -/
def Held.atomicLines (h : Held) : Nat := if 0x58 ≤ h.opc then fld h.w1.toNat 21 3 + 1 else 1

/-- Ring byte address of the operand, or of the destination (R295). -/
def Held.ringAt (h : Held) : Nat := fld h.w1.toNat 0 21

/-- The words of an atomic or row command (R295): the fields marked zero, and the ring extent; a row read writes a header
after its lines (R302). -/
def atomicWords (h : Held) : Bool :=
  let row := 0x58 ≤ h.opc
  let n := h.atomicLines + if h.isRowRead then 1 else 0
  h.w0.toNat % (if row then 512 else 64) == 0 && h.w1.toNat / 2 ^ (if row then 24 else 21) == 0 && h.ringAt % 64 == 0 &&
    h.ringAt + 64 * n ≤ 2 ^ 21

/-- An atomic or row command; its words are checked whatever the guard reads (R40, R118, R295, R330). Held.course holds P as an
absolute plan cycle until the command enters, and S from then on. -/
def atomicCommand (opc : Nat) (o : EnOp) (s : State) : State :=
  let x := s.cur
  let h := Held.fresh opc (enWord x o 0) (enWord x o 1) 0 s.issue.pc s.issue.issue
  let s0 := s.foundIf (guardTrue x o.g && enUe x o 2) 0x0B 39
  if !atomicWords h then s0.foundAt 0x01 39
  else if !guardTrue x o.g then s
  else
    let l := h.atomicLines
    let row := 0x58 ≤ opc
    let xl := translate (s.part (s.partOf s.issue.brick)) h.w0.toNat (64 * l) h.isRowRead (!h.isRowRead) timedTarget fun k a =>
      k != 0 || (row && (placeOf a).col == 3)
    let occ := if h.isRowRead then 0 else (l - 1) / 2 + 1
    (s0.xlateCheck 39 xl h.w0.toNat).admitTimed o occ occ
      { h with target := xl.addr, course := x.seq.pt + untilStart x (enStart x o) }

/-- AADD.I32 (R298). -/
def execAaddI32 (o : EnOp) (s : State) : Host.Outcome State Fault Refusal := .next (atomicCommand 0x50 o s)
/-- AADD.F32 (R298). -/
def execAaddF32 (o : EnOp) (s : State) : Host.Outcome State Fault Refusal := .next (atomicCommand 0x51 o s)
/-- AADD.BF16 (R298). -/
def execAaddBf16 (o : EnOp) (s : State) : Host.Outcome State Fault Refusal := .next (atomicCommand 0x52 o s)
/-- AMAX.I32 (R298). -/
def execAmaxI32 (o : EnOp) (s : State) : Host.Outcome State Fault Refusal := .next (atomicCommand 0x53 o s)
/-- AMAX.F32 (R298). -/
def execAmaxF32 (o : EnOp) (s : State) : Host.Outcome State Fault Refusal := .next (atomicCommand 0x54 o s)
/-- AMIN.I32 (R298). -/
def execAminI32 (o : EnOp) (s : State) : Host.Outcome State Fault Refusal := .next (atomicCommand 0x55 o s)
/-- AMIN.F32 (R298). -/
def execAminF32 (o : EnOp) (s : State) : Host.Outcome State Fault Refusal := .next (atomicCommand 0x56 o s)
/-- AXOR (R298). -/
def execAxor (o : EnOp) (s : State) : Host.Outcome State Fault Refusal := .next (atomicCommand 0x57 o s)
/-- AROWADD (R301). -/
def execArowadd (o : EnOp) (s : State) : Host.Outcome State Fault Refusal := .next (atomicCommand 0x58 o s)
/-- ROWLD (R302). -/
def execRowld (o : EnOp) (s : State) : Host.Outcome State Fault Refusal := .next (atomicCommand 0x59 o s)
/-- ROWLDF (R302). -/
def execRowldf (o : EnOp) (s : State) : Host.Outcome State Fault Refusal := .next (atomicCommand 0x5A o s)

/-- The operand lines that this plan cycle reads (R143, R296). -/
def State.atomicReads (s : State) (b : Nat) (h : Held) : State :=
  let t := (s.brick b).now
  if !h.isAtomic || h.isRowRead || h.cancelled then s
  else ((List.range h.atomicLines).filter fun k => h.beat k + 1 = t).foldl (fun s k =>
    let r := s.ringRead b (h.ringAt + 64 * k) 64
    r.2.2.onBrick b fun x => gotLine x h.p k (bytesLine r.1) r.2.1 (t + 2)) s

/-- A poisoned operand line reaches the engine: nothing enters (R299). -/
def State.atomicPoison (s : State) (b : Nat) (h : Held) : State :=
  if h.isAtomic && !h.isRowRead && !h.cancelled && (h.got.any fun g => g.poison && g.at' = (s.brick b).now) then
    s.failHeld b h 0x0B [(0x029, uafWord s 6 h.opc)]
  else s

/-- The class of an opcode: AROWADD is of AADD.BF16's (R295). -/
def atomicClass (opc : Nat) : Nat := if opc = 0x58 then 0x52 else opc

/-- Width of the elements of a class (R295). -/
def classWidth (cls : Nat) : Nat := if cls = 0x52 then 16 else if cls = 0x57 then 512 else 32

/-- The effect of a class whose operands and result have one width, and the merge of every class: for AADD.BF16 the FP32 shadow
(R298). -/
def classOp (cls a d : Nat) : Nat × Events :=
  match cls with
  | 0x50 => ((a + d) % 2 ^ 32, .none)
  | 0x51 => f32.add a d
  | 0x52 => f32.add a d
  | 0x53 => (if toSigned 32 a < toSigned 32 d then d else a, .none)
  | 0x54 => f32.minmax true a d
  | 0x55 => (if toSigned 32 d < toSigned 32 a then d else a, .none)
  | 0x56 => f32.minmax false a d
  | _ => (a ^^^ d, .none)

/-- The operand as it enters: BF16 widened exactly (R298). -/
def enterElem (cls d : Nat) : Nat := if cls = 0x52 then d * 2 ^ 16 else d

/-- An element at the application (R298). -/
def applyElem (cls old acc : Nat) : Nat × Events :=
  if cls = 0x52 then
    let r := sumVals [bf16.unpack old, f32.unpack acc]
    bf16.pack false r.1 r.2
  else classOp cls old acc

/-- A line of operands merges into what stands for its line; the elements that raised an event (R298). -/
def mergeLineOp (cls : Nat) (old : Option LineOp) (d : Line) : LineOp × List (Nat × Events) :=
  let ds := (elems (classWidth cls) d).map (enterElem cls)
  match old with
  | none => (⟨cls, ds⟩, [])
  | some o =>
    let rs := List.zipWith (classOp cls) o.acc ds
    (⟨cls, rs.map (·.1)⟩, (rs.zipIdx.filter fun r => r.1.2.any).map fun r => (r.2, r.1.2))

/-- A line with its pending operation applied, and the elements that raised an event (R298). -/
def applyLine (o : LineOp) (l : Line) : Line × List (Nat × Events) :=
  let w := classWidth o.cls
  let rs := List.zipWith (applyElem o.cls) (elems w l) o.acc
  (ofElems w (rs.map (·.1)), (rs.zipIdx.filter fun r => r.1.2.any).map fun r => (r.2, r.1.2))

/-- The block of an entry after its application; poisoned lines stay (R298, R299). -/
def applyEntry (ops : Table LineOp) (ls : List (Line × Bool)) : List (Line × Bool) × List (Nat × Events) :=
  let rs := ls.zipIdx.map fun q =>
    match tfind ops q.2 with
    | some o => if q.1.2 then (q.1, []) else
        let r := applyLine o q.1.1
        ((r.1, false), r.2.map fun (e : Nat × Events) => (512 * q.2 + e.1, e.2))
    | none => (q.1, [])
  (rs.map (·.1), rs.flatMap (·.2))

/-- Events of an entry, with the distinct elements that raised them (R311). -/
def AtomicEntry.raise (e : AtomicEntry) (evs : List (Nat × Events)) : AtomicEntry :=
  { e with
    ev := evs.foldl (fun a q => a.or q.2) e.ev
    evElems := evs.foldl (fun l q => insNat q.1 l) e.evElems }

/-- The place that holds a block: a relaid block of the lost stack lies on the stripe's parity stack (R111, R299). -/
def State.homePlace (s : State) (a : Nat) : Place :=
  let p := placeOf a
  if p.stack = s.bond.lstack && s.stripe p.ch p.bank p.row == .relaid then { p with stack := parityStack p.row p.ch } else p

/-- The rule that a slot from S on breaks, or 0 (R296). -/
def State.slotBroken (s : State) (task pch lo n : Nat) : Nat :=
  let c := s.channel pch
  let bad := !withinRun (s.part (s.task task).part).owned lo (lo + n - 1) ||
    (c.aslots.any fun x => spansMeet lo (lo + n - 1) x.1 (x.1 + x.2 - 1)) ||
    (c.shadows.any fun x => spansMeet lo (lo + n - 1) x.1 (x.1 + 7)) || (c.colAt.isSome && lo ≤ c.busEnd)
  if bad then 22 else 0

/-- A command of the channel queue performs nothing further and is no longer held (R330). -/
def releaseHeld (x : Brick) (p : Nat) : Brick := { x with held := x.held.filter fun h => h.p ≠ p }

/-- Release a command of an entry, on its brick or in the image of its parked task (R330). -/
def State.releaseCmd (s : State) (c : AtomicCmd) : State :=
  match s.homeOf c.task c.brick with
  | some n => s.onHome n fun x => releaseHeld x c.p
  | none => s

/-- A command takes a late fault at the channel (R299). -/
def State.failCmd (s : State) (c : AtomicCmd) (code cause : Nat) : State :=
  match s.homeOf c.task c.brick with
  | some n => s.lateHome n code 39 c.pc c.issue [(0x029, uafWord s cause c.opc)]
  | none => s

/-- The task whose state a home holds. -/
def State.taskOfHome (s : State) (n : Nat) : Nat := if n < 768 then (s.brick n).task.getD 0 else n / 768 - 1

/-- The lines of the block that a command works on. -/
def Held.blockLine (h : Held) (k : Nat) : Nat := if 0x58 ≤ h.opc then k else h.target % 512 / 64

/-- One command enters its channel's queue at plan cycle P + 12 (R296, R297, R299). -/
def State.enterAtomic (s : State) (b : Nat) (h : Held) : State :=
  let x := s.brick b
  let task := x.task.getD 0
  let sCyc := x.seq.c0 + h.course + 64
  let p := s.homePlace h.target
  let pch := p.channel
  let fail (code : Nat) : State := (s.violate task pch 8191 code 0x05).onBrick b fun x => releaseHeld x h.p
  if sCyc ≤ s.ct then (s.failHeld b h 0x04 [(0x029, uafWord s 1 h.opc)]).onBrick b fun x => releaseHeld x h.p
  else
    let n := if h.opc = 0x58 then 16 else 8
    let c := s.channel pch
    let here (e : AtomicEntry) : Bool := e.bank = p.bank && e.row = p.row && e.col = p.col && !e.read
    let e0 := c.atomics.find? here
    let cls := atomicClass h.opc
    let ks := List.range h.atomicLines
    let clash := !h.isRowRead && (match e0 with
      | some e => ks.any fun k => match tfind e.ops (h.blockLine k) with | some o => o.cls ≠ cls | none => false
      | none => false)
    let code := if clash then 23 else s.slotBroken task pch sCyc n
    if code ≠ 0 then fail code
    else
      let s1 := (s.onChannel pch fun c => { c with aslots := c.aslots ++ [(sCyc, n)] }).onBrick b fun x =>
        onHeld x h.p fun h => { h with course := sCyc, done := true }
      if h.isRowRead then s1
      else
        let cmd : AtomicCmd := ⟨b, task, h.opc, h.pc, h.issue, h.p⟩
        let base : AtomicEntry := e0.getD
          { bank := p.bank, row := p.row, col := p.col, ops := [], version := 0, s := sCyc, read := false, old := [], cmds := [],
            task := task, ev := .none, evElems := [], oldVer := [] }
        let e1 := ks.foldl (fun (e : AtomicEntry) k =>
          let line := h.blockLine k
          let r := mergeLineOp cls (tfind e.ops line) (h.gotAt k)
          { (e.raise (r.2.map fun q => (512 * line + q.1, q.2))) with ops := tins e.ops line r.1 }) base
        let e2 : AtomicEntry := { e1 with cmds := e1.cmds ++ [cmd], version := e1.version + if h.opc = 0x58 then 1 else 0 }
        s1.onChannel pch fun c =>
          { c with atomics := if e0.isSome then c.atomics.map fun e => if here e then e2 else e else c.atomics ++ [e2] }

/-- ATOMIC_ENTRY: the commands of a brick whose plan cycle P + 12 this is enter (R297). -/
def execAtomicEntry (b : Nat) (s : State) : Host.Outcome State Fault Refusal :=
  .next ((s.brick b).held.foldl (fun s h =>
    if h.isAtomic && !h.cancelled && !h.done && h.p + 12 = (s.brick b).now then s.enterAtomic b h else s) s)

/-- Replace an entry of a channel, or remove it. -/
def State.onEntry (s : State) (pch : Nat) (e : AtomicEntry) (f : AtomicEntry → Option AtomicEntry) : State :=
  s.onChannel pch fun c =>
    { c with
      atomics := c.atomics.filterMap fun g =>
        if g.bank = e.bank && g.row = e.row && g.col = e.col && g.s = e.s then f g else some g }

/-- The entry makes no access and frees; its commands leave. -/
def State.dropEntry (s : State) (pch : Nat) (e : AtomicEntry) : State :=
  e.cmds.foldl State.releaseCmd (s.onEntry pch e fun _ => none)

/-- A block is lost and not relaid (R104, R299). -/
def State.blockLost (s : State) (pch bank : Nat) : Bool := ((s.channel pch).bank bank).cracked

/-- The read of an application, as a WRB: rules, the shadow slot, the claim (R100, R298). -/
def State.applicationRead (s : State) (pch : Nat) (e : AtomicEntry) (col : Nat) : Nat × List (Line × Bool) × State :=
  let ch := pch % 32
  let par := 32 * parityStack e.row ch + ch
  let delta := s.takesDelta ch e.bank e.row && par ≠ pch
  let code := match s.applicationBroken pch e.bank e.row with
    | 0 => if delta then (s.channel par).shadowClaim (s.ct + 96) e.bank e.row col else 0
    | k => k
  if code ≠ 0 then (code, [], s)
  else
    let r := s.fetchBlock ⟨pch / 32, ch, e.bank, e.row, col⟩
    let s1 := r.2.onChannel pch fun c => c.note 4 e.bank s.ct
    (0, r.1, if delta then s1.onChannel par fun c => { c with shadows := c.shadows ++ [(s.ct + 96, e.bank, e.row, col)] } else s1)

/-- The write of an application four cycles after its read, with its delta (R99, R298). -/
def State.applicationWrite (s : State) (pch : Nat) (e : AtomicEntry) (col : Nat) (old new : List (Line × Bool)) : State :=
  let ch := pch % 32
  let par := 32 * parityStack e.row ch + ch
  let s1 := s.writeBlock ⟨pch / 32, ch, e.bank, e.row, col⟩ (settlePoison new)
  if s.takesDelta ch e.bank e.row && par ≠ pch then
    s1.enterDelta par e.bank e.row col (xorLines old new) (s.ct + 92) e.task
  else s1

/-- The record of an entry's application; SRC is of the command that opened it (R311). -/
def entryRec (e : AtomicEntry) (c : AtomicCmd) : BitVec 128 :=
  pollenRec 0x04 39 c.pc c.issue e.ev (BitVec.ofNat 64 ((if c.opc = 0x58 then 2 else 1) +
    (e.evElems.foldl (fun m i => m ||| 2 ^ (i / 512)) 0) * 2 ^ 8 + e.evElems.length * 2 ^ 32))

/-- What an entry does on this Course cycle: the read at S, the write at S + 4, the version's read at S + 8 and write at S + 12
(R298, R299). -/
def State.stepEntry (s : State) (pch : Nat) (e : AtomicEntry) : State :=
  if !e.read && e.s = s.ct then
    if s.blockLost pch e.bank then (e.cmds.foldl (fun s c => s.failCmd c 0x0B 5) s).dropEntry pch e
    else
      let r := s.applicationRead pch e e.col
      if r.1 ≠ 0 then (s.violate e.task pch 8191 r.1 0x05).dropEntry pch e
      else r.2.2.onEntry pch e fun g => some { g with read := true, old := r.2.1 }
  else if e.read && e.s + 4 = s.ct then
    if s.blockLost pch e.bank then (e.cmds.foldl (fun s c => s.failCmd c 0x0B 5) s).dropEntry pch e
    else
      let r := applyEntry e.ops e.old
      let e1 := e.raise r.2
      let s1 := s.applicationWrite pch e e.col e.old r.1
      let s2 := match e.cmds with
        | c :: _ =>
          match s.homeOf c.task c.brick with
          | some n => if e1.ev.any then s1.onHome n fun x => { x with pollenNew := x.pollenNew ++ [(39, entryRec e1 c)] } else s1
          | none => s1
        | [] => s1
      let s3 := if e.old.any (·.2) then e.cmds.foldl (fun s c => s.failCmd c 0x0B 5) s2 else s2
      if e.version = 0 then s3.dropEntry pch e else s3
  else if e.read && e.s + 8 = s.ct then
    if s.blockLost pch e.bank then (e.cmds.foldl (fun s c => s.failCmd c 0x0B 5) s).dropEntry pch e
    else
      let r := s.applicationRead pch e 3
      if r.1 ≠ 0 then (s.violate e.task pch 8191 r.1 0x05).dropEntry pch e
      else r.2.2.onEntry pch e fun g => some { g with oldVer := r.2.1 }
  else if e.read && e.s + 12 = s.ct then
    if s.blockLost pch e.bank then (e.cmds.foldl (fun s c => s.failCmd c 0x0B 5) s).dropEntry pch e
    else
      let new := e.oldVer.zipIdx.map fun q =>
        if q.2 = 0 && !q.1.2 then
          (ofElems 32 ((elems 32 q.1.1).zipIdx.map fun w => if w.2 = e.col then (w.1 + e.version) % 2 ^ 32 else w.1), false)
        else q.1
      (s.applicationWrite pch e 3 e.oldVer new).dropEntry pch e
  else s

/-- ATOMIC_APPLICATION (R298, R299). -/
def execAtomicApplication (ch : Nat) (s : State) : Host.Outcome State Fault Refusal :=
  .next ((s.channel ch).atomics.foldl (fun s e => s.stepEntry ch e) s)

/-- The rules a row read breaks: as an RD under rules 1, 7, 8, 10 and 16, on its row (R302). -/
def State.rowReadBroken (s : State) (p : Place) : Nat :=
  let c := s.channel p.channel
  if (c.bank p.bank).actAt = some s.ct then 16
  else match (c.broken 2 p.bank s.ct).filter fun k => k == 1 || k == 7 || k == 8 || k == 10 || k == 16 with
  | k :: _ => k
  | [] => if (c.bank p.bank).openRow = some p.row then 0 else 16

/-- A count of WILT (R304). -/
def State.countRow (s : State) (b : Nat) (freshRead stale : Bool) : State :=
  s.onPart (s.partOfHome b) fun k =>
    if freshRead then { k with wiltFresh := satAdd32 k.wiltFresh 1 }
    else if stale then { k with wiltStale := satAdd32 k.wiltStale 1 }
    else k

/-- A row read at S: the row's lines, with the open entry applied for ROWLDF; whether an entry on the row's block or on the block of its
version is pending (R294, R302). The version's
increments wait in evCount, PEND and POISON in evLines. -/
def State.rowReadAtS (s : State) (b : Nat) (h : Held) : State :=
  let p := s.homePlace h.target
  let pch := p.channel
  let cmd : AtomicCmd := ⟨b % 768, s.taskOfHome b, h.opc, h.pc, h.issue, h.p⟩
  if s.blockLost pch p.bank then (s.failCmd cmd 0x0B 5).onHome b fun x => releaseHeld x h.p
  else
    let code := s.rowReadBroken p
    if code ≠ 0 then (s.violate cmd.task pch 8191 code 0x05).onHome b fun x => releaseHeld x h.p
    else
      let r := s.fetchBlock p
      let c := s.channel pch
      let pending (col : Nat) := c.atomics.find? fun e => e.bank = p.bank && e.row = p.row && e.col = col && !e.read && s.ct < e.s
      let er := pending p.col
      let ev := (pending 3).bind fun e => tfind e.ops 0
      let pend := er.isSome || (pending 3).isSome
      let freshRead := h.opc == 0x5A
      let data := if freshRead then (match er with | some e => (applyEntry e.ops r.1).1 | none => r.1) else r.1
      let inc := if freshRead then (match er with | some e => e.version | none => 0) else 0
      ((r.2.onChannel pch fun c => c.note 2 p.bank s.ct).countRow b freshRead pend).onHome b fun x => onHeld x h.p fun h =>
        { h with
          got := (List.range h.atomicLines).map fun k => let l := data.getD k (0, false); ⟨k, l.1, l.2, 0⟩
          evCount := inc
          evLines := pend.toNat
          snap := if freshRead then ev else none }

/-- A row read at S + 4: the version, and the header line (R300, R302). -/
def State.rowReadVersion (s : State) (b : Nat) (h : Held) : State :=
  let p := { s.homePlace h.target with col := 3 }
  let pch := p.channel
  let cmd : AtomicCmd := ⟨b % 768, s.taskOfHome b, h.opc, h.pc, h.issue, h.p⟩
  if s.blockLost pch p.bank then (s.failCmd cmd 0x0B 5).onHome b fun x => releaseHeld x h.p
  else
    let code := s.rowReadBroken p
    if code ≠ 0 then (s.violate cmd.task pch 8191 code 0x05).onHome b fun x => releaseHeld x h.p
    else
      let r := s.fetchBlock p
      let l := r.1.headD (0, false)
      let line := match h.snap with | some o => if l.2 then l.1 else (applyLine o l.1).1 | none => l.1
      let ver := (elem 32 line (placeOf h.target).col + h.evCount) % 2 ^ 32
      let psn := l.2 || h.got.any (·.poison)
      let header : Line := BitVec.ofNat 512 (ver + h.evLines * 2 ^ 32 + psn.toNat * 2 ^ 33)
      let s1 := (r.2.onChannel pch fun c => c.note 2 p.bank s.ct).onHome b fun x => onHeld x h.p fun h =>
        { h with got := h.got ++ [⟨h.atomicLines, header, false, 0⟩] }
      if psn then s1.failCmd cmd 0x0B 5 else s1

/-- The ring writes of the row reads of a home on this Course cycle, through the fill port (R302); with the header the command
leaves. -/
def State.rowReadWrites (s : State) (n : Nat) : State :=
  ((s.home n).held.filter fun h => h.isRowRead && h.done && !h.cancelled).foldl (fun s h =>
    let base := h.course + if h.opc = 0x5A then 62 else 50
    let due (k : Nat) : Bool := if k = h.atomicLines then base + 4 == s.ct else base + k / 2 == s.ct
    let s1 := s.onHome n fun x => (h.got.filter fun g => due g.k).foldl (fun x g =>
      { x with ring := x.ring.writeLine (h.ringAt / 64 + g.k) g.data g.poison }) x
    (if base + 4 = s.ct then s1.onHome n fun x => releaseHeld x h.p else s1).syncImage n (s.home n)) s

/-- ROW_READ: the reads of a brick's row commands on this Course cycle, whether or not the brick is frozen or its task parked; their
ring writes perform with the other timed writes (R165, R302, R303). -/
def execRowRead (b : Nat) (s : State) : Host.Outcome State Fault Refusal :=
  .next ((s.home b).held.foldl (fun s h =>
    if !(h.isRowRead && h.done && !h.cancelled) then s
    else if h.course = s.ct then s.rowReadAtS b h
    else if h.course + 4 = s.ct then s.rowReadVersion b h
    else s) s)

end Sys2Proof.Machine
end

