-- ==== Sys2Proof/Machine/RingOps.lean ====
section
/-! DEFINITION. The ring slots m0 to m7 (R159 to R162). -/

namespace Sys2Proof.Machine

/-- The block of a ring slot (R31). -/
def blockOf (pos : Nat) : Nat := pos - 27

/-- The line number (base + line) mod 4,096 (R160). -/
def ringLineNo (x : Brick) (o : RingOp) : Nat := ((scalarVal x o.base).toNat + o.line) % 4096

/-- The granule of a line of the slot's block (R160). -/
def granuleOf (x : Brick) (o : RingOp) : Nat := 64 * blockOf o.pos + ringLineNo x o / 64

/-- The bundle-port read at t+1 and the drive at t+3 of MRD and MRDT (R161). -/
def ringReadOp (o : RingOp) (s : State) : State :=
  let x := s.cur
  let k := blockOf o.pos
  let s1 := s.foundIf (scalarUe x o.base) 0x0B o.pos
  ((s1.claimPort o.pos k 1).claimLane o.pos o.aw o.lane (2 * k) 3).addFlight
    (s.plainFlight o.pos 1 (.readLine o.aw o.lane (2 * k) k (ringLineNo x o) (x.seq.clk + 3)) 0)

/-- MRD (R161). -/
def execMrd (o : RingOp) (s : State) : Host.Outcome State Fault Refusal :=
  .next (if guardTrue s.cur o.g then ringReadOp o s else s.ghostPort o.pos (blockOf o.pos) 1)

/-- The tag check of MRDT: the tag 0xFFFF matches no expected value (R129). -/
def tagMatches (tag want : BitVec 16) : Bool := tag == want && tag != 0xFFFF

/-- MRDT: the sequence tag is checked at t (R129, R161). -/
def execMrdt (o : RingOp) (s : State) : Host.Outcome State Fault Refusal :=
  let x := s.cur
  .next (if guardTrue x o.g then
      ringReadOp o (s.foundIf (!tagMatches (tagOf x (granuleOf x o)) (tagOperand x (o.mod % 64))) 0x02 o.pos)
    else s.ghostPort o.pos (blockOf o.pos) 1)

/-- The blocks of a mask. -/
def maskBlocks (blocks : Nat) : List Nat := (List.range 8).filter fun j => blocks / 2 ^ j % 2 = 1

/-- A tapped line written at t+3 into one line of each block of a mask (R161). -/
def ringWriteOp (o : RingOp) (blocks : Nat) (s : State) : State :=
  let x := s.cur
  let k := blockOf o.pos
  let s1 := (s.tapCheck o.pos (2 * k) (.tap o.aw o.lane)).foundIf (scalarUe x o.base) 0x0B o.pos
  let s2 := (maskBlocks blocks).foldl (fun s j => s.claimPort o.pos j 3) s1
  s2.addFlight (s.plainFlight o.pos 3 (.ringLine blocks (ringLineNo x o)) ((tap x o.aw o.lane (2 * k)).getD 0))

/-- MWR (R161). -/
def execMwr (o : RingOp) (s : State) : Host.Outcome State Fault Refusal :=
  .next (if guardTrue s.cur o.g then ringWriteOp o (2 ^ blockOf o.pos) s else s.ghostPort o.pos (blockOf o.pos) 3)

/-- MWRM (R161). -/
def execMwrm (o : RingOp) (s : State) : Host.Outcome State Fault Refusal :=
  .next (if guardTrue s.cur o.g then ringWriteOp o (o.mod % 256) s
    else (maskBlocks (o.mod % 256)).foldl (fun s j => s.ghostPort o.pos j 3) s)

/-- MSTAG: the tag takes the register's value at t+1 (R161). -/
def execMstag (o : RingOp) (s : State) : Host.Outcome State Fault Refusal :=
  let x := s.cur
  .next (if guardTrue x o.g then
      (s.foundIf (scalarUe x o.base || scalarUe x (.reg (o.mod % 64))) 0x0B o.pos).addFlight
        (s.plainFlight o.pos 1 (.tag (granuleOf x o)) ((tagOperand x (o.mod % 64)).setWidth 512))
    else s)

end Sys2Proof.Machine
end

