-- ==== Sys2Proof/Machine/Scalar.lean ====
section
/-! DEFINITION. The scalar units: arithmetic, compares, bit fields and ring memory access (R191 to R196, R198). -/

namespace Sys2Proof.Machine

/-- MOV.I64 (R192). -/
def execMovI64 (o : SlotOp) (s : State) : Host.Outcome State Fault Refusal := .next (scalarUnary o (fun a => a) s)

/-- ADD.I64 (R192). -/
def execAddI64 (o : SlotOp) (s : State) : Host.Outcome State Fault Refusal := .next (scalarAlu o 1 (fun a b => a + b) s)

/-- SUB.I64 (R192). -/
def execSubI64 (o : SlotOp) (s : State) : Host.Outcome State Fault Refusal := .next (scalarAlu o 1 (fun a b => a - b) s)

/-- AND (R192). -/
def execAnd (o : SlotOp) (s : State) : Host.Outcome State Fault Refusal := .next (scalarAlu o 1 (fun a b => a &&& b) s)

/-- OR (R192). -/
def execOr (o : SlotOp) (s : State) : Host.Outcome State Fault Refusal := .next (scalarAlu o 1 (fun a b => a ||| b) s)

/-- XOR (R192). -/
def execXor (o : SlotOp) (s : State) : Host.Outcome State Fault Refusal := .next (scalarAlu o 1 (fun a b => a ^^^ b) s)

/-- SHL by b mod 64 (R192). -/
def execShl (o : SlotOp) (s : State) : Host.Outcome State Fault Refusal :=
  .next (scalarAlu o 1 (fun a b => a <<< (b.toNat % 64)) s)

/-- SHR by b mod 64, filling with 0 (R192). -/
def execShr (o : SlotOp) (s : State) : Host.Outcome State Fault Refusal :=
  .next (scalarAlu o 1 (fun a b => a >>> (b.toNat % 64)) s)

/-- SAR by b mod 64, filling with a[63] (R192). -/
def execSar (o : SlotOp) (s : State) : Host.Outcome State Fault Refusal :=
  .next (scalarAlu o 1 (fun a b => a.sshiftRight (b.toNat % 64)) s)

/-- MIN.I64 (R192). -/
def execMinI64 (o : SlotOp) (s : State) : Host.Outcome State Fault Refusal :=
  .next (scalarAlu o 1 (fun a b => if scalarCmp 2 (isUns o) b a then b else a) s)

/-- MAX.I64 (R192). -/
def execMaxI64 (o : SlotOp) (s : State) : Host.Outcome State Fault Refusal :=
  .next (scalarAlu o 1 (fun a b => if scalarCmp 2 (isUns o) a b then b else a) s)

/-- MUL.I64, landing at t+3 (R192). -/
def execMulI64 (o : SlotOp) (s : State) : Host.Outcome State Fault Refusal := .next (scalarAlu o 3 (fun a b => a * b) s)

/-- The high half of the 128-bit product, signed or unsigned; the signed form rounds towards minus infinity (R192). -/
def mulHigh (unsigned : Bool) (a b : Word) : Word :=
  if unsigned then BitVec.ofNat 64 (a.toNat * b.toNat / 2 ^ 64) else BitVec.ofInt 64 (a.toInt * b.toInt / 2 ^ 64)

/-- MULH.I64, landing at t+3 (R192). -/
def execMulhI64 (o : SlotOp) (s : State) : Host.Outcome State Fault Refusal := .next (scalarAlu o 3 (mulHigh (isUns o)) s)

/-- CMPEQ.I64 (R193). -/
def execCmpeqI64 (o : SlotOp) (s : State) : Host.Outcome State Fault Refusal := .next (scalarTest o (scalarCmp 0 false) s)

/-- CMPNE.I64 (R193). -/
def execCmpneI64 (o : SlotOp) (s : State) : Host.Outcome State Fault Refusal := .next (scalarTest o (scalarCmp 1 false) s)

/-- CMPLT.I64 (R193). -/
def execCmpltI64 (o : SlotOp) (s : State) : Host.Outcome State Fault Refusal := .next (scalarTest o (scalarCmp 2 (isUns o)) s)

/-- CMPLE.I64 (R193). -/
def execCmpleI64 (o : SlotOp) (s : State) : Host.Outcome State Fault Refusal := .next (scalarTest o (scalarCmp 3 (isUns o)) s)

/-- QAND (R193). -/
def execQand (o : SlotOp) (s : State) : Host.Outcome State Fault Refusal :=
  .next (scalarTest o (fun a b => a == 1 && b == 1) s)

/-- QOR (R193). -/
def execQor (o : SlotOp) (s : State) : Host.Outcome State Fault Refusal :=
  .next (scalarTest o (fun a b => a == 1 || b == 1) s)

/-- QXOR (R193). -/
def execQxor (o : SlotOp) (s : State) : Host.Outcome State Fault Refusal := .next (scalarTest o (fun a b => a != b) s)

/-- QNOT (R193). -/
def execQnot (o : SlotOp) (s : State) : Host.Outcome State Fault Refusal :=
  .next (scalarOp o [] 1 (.qpred o.dst.index) (fun x => if scalarVal x o.a = 1 then 0 else 1) s)

/-- 2^w - 1 for a width of 1 to 64 (R194). -/
def lowMask (w : Nat) : Word := BitVec.ofNat 64 (2 ^ w - 1)

/-- BFX (R194). -/
def execBfx (o : SlotOp) (s : State) : Host.Outcome State Fault Refusal :=
  .next (scalarAlu o 1 (fun a b => (a >>> (o.mod % 64)) &&& lowMask b.toNat) s)

/-- BFI reads its destination as a third operand (R194). -/
def execBfi (o : SlotOp) (s : State) : Host.Outcome State Fault Refusal :=
  .next (scalarOp o [o.a, o.dst] 1 (.sreg o.dst.index) (fun x =>
    let m := lowMask (scalarVal x o.b).toNat <<< (o.mod % 64)
    (readS x o.dst.index &&& ~~~m) ||| ((scalarVal x o.a <<< (o.mod % 64)) &&& m)) s)

/-- The number of 1 bits among the low n (R192). -/
def countOnes : Nat → Nat → Nat
  | 0, _ => 0
  | n + 1, x => x % 2 + countOnes n (x / 2)

/-- POPC (R192). -/
def execPopc (o : SlotOp) (s : State) : Host.Outcome State Fault Refusal :=
  .next (scalarUnary o (fun a => BitVec.ofNat 64 (countOnes 64 a.toNat)) s)

/-- CLZ; 64 when a is 0 (R192). -/
def execClz (o : SlotOp) (s : State) : Host.Outcome State Fault Refusal :=
  .next (scalarUnary o (fun a => BitVec.ofNat 64 (64 - bitLen a.toNat)) s)

/-- The ring byte address of a scalar access: the bits below the size are ignored (R195). -/
def scalarAddr (v : Word) (size : Nat) : Nat := v.toNat % 2 ^ 21 / 2 ^ size * 2 ^ size

/-- LD: the bundle port reads at t+1 and the value lands at t+3 (R158, R195). -/
def execLd (o : SlotOp) (s : State) : Host.Outcome State Fault Refusal :=
  let x := s.cur
  let addr := scalarAddr (scalarVal x o.a + scalarVal x o.b) (o.mod % 4)
  if guardTrue x o.g then
    let s1 := (s.foundIf (scalarUe x o.a || scalarUe x o.b) 0x0B o.pos).claimPort o.pos (addr / 262144) 1
    .next (s1.addFlight
      { s.plainFlight o.pos 1 (.readWord addr (o.mod % 4) (o.mod / 4 % 2 == 1) o.dst.index (x.seq.clk + 3)) 0 with latch := true })
  else .next (s.ghostPort o.pos (addr / 262144) 1)

/-- ST: a 64-bit store writes at t+3, a narrower one first reads its word at t+1 (R158, R195). -/
def execSt (o : SlotOp) (s : State) : Host.Outcome State Fault Refusal :=
  let x := s.cur
  let size := o.mod % 4
  let addr := scalarAddr (scalarVal x o.b) size
  if guardTrue x o.g then
    let s1 := s.foundIf (scalarUe x o.a || scalarUe x o.b) 0x0B o.pos
    let v := (scalarVal x o.a).setWidth 512
    if size = 3 then
      .next ((s1.claimPort o.pos (addr / 262144) 3).addFlight (s.plainFlight o.pos 3 (.ringStore addr size) v))
    else
      .next (((s1.claimPort o.pos (addr / 262144) 1).claimPort o.pos (addr / 262144) 3).addFlight
        (s.plainFlight o.pos 1 (.readStore addr size (x.seq.clk + 3)) v))
  else .next ((if size = 3 then s else s.ghostPort o.pos (addr / 262144) 1).ghostPort o.pos (addr / 262144) 3)

/-- Field j of a work identifier cut by the widths of WIDW (R197, R198). -/
def workField (widths : Nat) (wid : Word) (j : Nat) : Word :=
  let w (i : Nat) := fld widths (6 * i) 6
  let lo := ((List.range j).map w).sum
  BitVec.ofNat 64 (fld wid.toNat lo (w j))

/-- WID (R198). -/
def execWid (o : SlotOp) (s : State) : Host.Outcome State Fault Refusal :=
  let widths := match s.cur.task with
    | some t => (s.task t).widths
    | none => 0
  .next (scalarOp o [] 1 (.sreg o.dst.index) (fun x => workField widths x.workid o.mod) s)

end Sys2Proof.Machine
end

