-- ==== Sys2Proof/Machine/Update.lean ====
section
/-! DEFINITION. The update unit: UPD and UNORM over ring memory (R305 to R313). -/

namespace Sys2Proof.Machine

/-- UPD: the parameter line's address, checked whatever the guard reads (R40, R308); it occupies one group's cycles until the line is
read (R310). -/
def execUpd (o : EnOp) (s : State) : Host.Outcome State Fault Refusal :=
  let x := s.cur
  let w := enWord x o 0
  let s0 := s.foundIf (guardTrue x o.g && enUe x o 1) 0x0B 39
  .next (if !(ringWord w 1) then s0.foundAt 0x01 39
    else if !guardTrue x o.g then s
    else s0.admitTimed o 40 40 (Held.fresh 0x40 w 0 0 s.issue.pc s.issue.issue))

/-- UNORM's gradient: groups, format, lines (R307). -/
def Held.unormWide (h : Held) : Bool := h.w0.getLsbD 31
def Held.unormGroups (h : Held) : Nat := fld h.w0.toNat 21 10 + 1
def Held.unormLines (h : Held) : Nat := if h.unormWide then 2 * h.unormGroups else h.unormGroups

/-- UNORM; its words are checked whatever the guard reads (R40, R307). -/
def execUnorm (o : EnOp) (s : State) : Host.Outcome State Fault Refusal :=
  let x := s.cur
  let h := Held.fresh 0x41 (enWord x o 0) (enWord x o 1) 0 s.issue.pc s.issue.issue
  let a := fld h.w0.toNat 0 21
  let s0 := s.foundIf (guardTrue x o.g && enUe x o 2) 0x0B 39
  let n := (h.unormLines + 1) / 2 + 12
  .next (if !(h.w0.toNat / 2 ^ 32 == 0 && a % 64 == 0 && a + 64 * h.unormLines ≤ 2 ^ 21 && ringWord h.w1 1) then s0.foundAt 0x01 39
    else if !guardTrue x o.g then s
    else s0.admitTimed o n n h)

/-- A line that UPD or UNORM reads; one with an error is a late fault at its read (R310). -/
def State.updateRead (s : State) (b : Nat) (h : Held) (key addr : Nat) : State :=
  let live := ((s.brick b).held.find? fun g => g.p == h.p).any fun g => !g.cancelled
  if !live then s
  else
    let r := s.ringRead b addr 64
    if r.2.1 then r.2.2.failHeld b h 0x0B [(0x029, uafWord s 6 h.opc)]
    else r.2.2.onBrick b fun x => gotLine x h.p key (bytesLine r.1) false 0

/-- The gradient element e of a list of lines, widened to FP32 (R307, R309). -/
def gradElem (wide : Bool) (ls : List Line) (e : Nat) : Nat :=
  if wide then elem 32 (ls.getD (e / 16) 0) (e % 16) else elem 16 (ls.getD (e / 32) 0) (e % 32) * 2 ^ 16

/-- The record of UPD and UNORM (R311). -/
def updateRec (h : Held) : BitVec 128 :=
  pollenRec 0x04 39 h.pc h.issue h.ev (BitVec.ofNat 64 ((if h.opc = 0x40 then 3 else 4) + h.evGroup.getD 0 % 2 ^ 16 * 2 ^ 16 +
    h.evCount % 2 ^ 32 * 2 ^ 32))

/-- The events of group j's elements join a command's (R311). -/
def Held.raise (h : Held) (j : Nat) (evs : List Events) : Held :=
  let n := (evs.filter Events.any).length
  { h with
    ev := evs.foldl Events.or h.ev
    evCount := h.evCount + n
    evGroup := if n ≠ 0 && h.evGroup.isNone then some j else h.evGroup }

/-- The sum of squares in increasing e: the sum and the events of each element (R307). -/
def sumSquares (wide : Bool) (ls : List Line) (n : Nat) : Nat × List Events :=
  (List.range n).foldl (fun (acc : Nat × List Events) e =>
    let g := gradElem wide ls e
    let q := f32.mul g g
    let r := f32.add acc.1 q.1
    (r.1, acc.2 ++ [q.2.or r.2])) (0, [])

/-- The gradient lines that UNORM reads on this plan cycle (R307). -/
def State.unormReads (s : State) (b : Nat) (h : Held) : State :=
  ((List.range h.unormLines).filter fun k => h.beat k + 1 = (s.brick b).now).foldl (fun s k =>
    s.updateRead b h k (fld h.w0.toNat 0 21 + 64 * k)) s

/-- UNORM's write, and its record (R307, R311). -/
def State.unormWrite (s : State) (b : Nat) (h : Held) : State :=
  let n := h.unormLines
  if h.p + (n + 1) / 2 + 12 ≠ (s.brick b).now then s
  else
    let r := sumSquares h.unormWide ((List.range n).map h.gotAt) (32 * h.unormGroups)
    let g := (r.2.zipIdx).foldl (fun (g : Held) e => g.raise (e.2 / 32) [e.1]) h
    let s1 := s.onBrick b fun x => { x with ring := x.ring.writeLine (h.w1.toNat / 64) (BitVec.ofNat 512 r.1) false }
    if g.ev.any then s1.pollen b 39 (updateRec g) else s1

/-- Words of the parameter line (R308). -/
def Held.param (h : Held) (i : Nat) : Nat := elem 32 (h.gotAt 100000) i
def Held.groups (h : Held) : Nat := fld (h.param 5) 0 10 + 1
def Held.adam (h : Held) : Bool := fld (h.param 5) 10 2 == 1
def Held.wideGrad (h : Held) : Bool := fld (h.param 5) 12 1 == 1
def Held.groupTime (h : Held) : Nat := if h.adam then 8 else 6

/-- The parameter line is admitted: optimizer, zero fields, plane extents (R308). -/
def paramsOk (h : Held) : Bool :=
  let g := h.groups
  let plane (i n : Nat) : Bool := h.param i % 64 == 0 && h.param i + n * g ≤ 2 ^ 21
  fld (h.param 5) 10 2 ≤ 1 && h.param 5 / 2 ^ 13 == 0 && h.param 14 == 0 && h.param 15 == 0 &&
    plane 0 (if h.wideGrad then 128 else 64) && plane 1 64 && plane 2 64 && plane 3 128 &&
    (if h.adam then plane 4 128 else [4, 8, 9, 12, 13].all fun i => h.param i == 0)

/-- c of a UPD, and its event (R309). -/
def clipFactor (norm tau : Nat) : Nat × Events :=
  if (f32.unpack norm).isNan then (f32.nanBits, .none)
  else if (f32.cmp 1 tau norm).1 then divF32 tau norm
  else (0x3F800000, .none)

/-- The constants that belong to no element: c, 1 - β1, 1 - β2, and their events (R309, R311). -/
def updConsts (h : Held) : (Nat × Nat × Nat) × Events :=
  let c := clipFactor (fld h.w1.toNat 0 32) (h.param 11)
  if h.adam then
    let a := f32.sub 0x3F800000 (h.param 7)
    let d := f32.sub 0x3F800000 (h.param 8)
    ((c.1, a.1, d.1), c.2.or (a.2.or d.2))
  else ((c.1, 0, 0), c.2)

/-- A rounded operation whose event joins those before it. -/
def chain (ev : Events) (r : Nat × Events) : Nat × Events := (r.1, ev.or r.2)

/-- One element of an update: m, v, w and the events (R309). -/
def updElem (h : Held) (k : Nat × Nat × Nat) (g w m v : Nat) : Nat × Nat × Nat × Events :=
  let lr := h.param 6
  let g1 := chain .none (f32.mul g k.1)
  let m1 := chain g1.2 (f32.mul (h.param 7) m)
  let decay (ev : Events) : Nat × Events := chain ev (f32.mul (h.param 10) w)
  let fin (mv : Nat × Nat) (u : Nat × Events) : Nat × Nat × Nat × Events :=
    let p := chain u.2 (f32.mul lr u.1)
    let r := chain p.2 (f32.sub w p.1)
    (mv.1, mv.2, r.1, r.2)
  if h.adam then
    let mg := chain m1.2 (f32.mul k.2.1 g1.1)
    let m2 := chain mg.2 (f32.add m1.1 mg.1)
    let v1 := chain m2.2 (f32.mul (h.param 8) v)
    let gg := chain v1.2 (f32.mul g1.1 g1.1)
    let vg := chain gg.2 (f32.mul k.2.2 gg.1)
    let v2 := chain vg.2 (f32.add v1.1 vg.1)
    let mb := chain v2.2 (f32.mul m2.1 (h.param 12))
    let vb := chain mb.2 (f32.mul v2.1 (h.param 13))
    let rt := chain vb.2 (sqrtF32 vb.1)
    let de := chain rt.2 (f32.add rt.1 (h.param 9))
    let q := chain de.2 (divF32 mb.1 de.1)
    let lw := decay q.2
    fin (m2.1, v2.1) (chain lw.2 (f32.add q.1 lw.1))
  else
    let m2 := chain m1.2 (f32.add m1.1 g1.1)
    let lw := decay m2.2
    fin (m2.1, v) (chain lw.2 (f32.add m2.1 lw.1))

/-- Line i of group j as it was read: 0 and 1 of the gradient, 2 BF16 plane, 3 extension plane, 4 and 5 M, 6 and 7 V. -/
def groupKey (j i : Nat) : Nat := 8 * j + i

/-- The 32 elements of group j after the update (R309). -/
def updGroup (h : Held) (k : Nat × Nat × Nat) (j : Nat) : List (Nat × Nat × Nat × Events) :=
  let l (i : Nat) := h.gotAt (groupKey j i)
  (List.range 32).map fun e =>
    let g := gradElem h.wideGrad [l 0, l 1] e
    let w := elem 16 (l 2) e * 2 ^ 16 + elem 16 (l 3) e
    let half (a b : Line) : Nat := elem 32 (if e < 16 then a else b) (e % 16)
    updElem h k g w (half (l 4) (l 5)) (half (l 6) (l 7))

/-- UPD at its start: the norm and its tag; NORM is held for the update (R308). -/
def State.updNorm (s : State) (b : Nat) (h : Held) : State :=
  let x := s.brick b
  let nrm := sysGet x 0x026
  if !(sysGet x 0x027).getLsbD 0 then s.failHeld b h 0x04 [(0x029, uafWord s 2 h.opc)]
  else if fld nrm.toNat 32 32 ≠ s.steptag b then s.failHeld b h 0x02 [(0x029, uafWord s 3 h.opc)]
  else s.onBrick b fun x => onHeld x h.p fun h => { h with w1 := nrm }

/-- UPD at P + 1: the parameter line, and the occupancy of all its groups (R308, R310). -/
def State.updParams (s : State) (b : Nat) (h : Held) : State :=
  let s1 := s.updateRead b h 100000 (fld h.w0.toNat 0 21)
  let g := ((s1.brick b).held.find? fun g => g.p == h.p).getD h
  if g.cancelled then s1
  else if !paramsOk g then s1.failHeld b h 0x0E [(0x029, uafWord s 4 h.opc)]
  else
    let occ := g.p + 40 + g.groupTime * (g.groups - 1)
    if (s1.brick b).held.any fun q => q.p ≠ g.p && q.p ≤ occ && g.p ≤ q.occ then
      s1.failHeld b h 0x04 [(0x047, cpfWord s 3 h.start)]
    else s1.onBrick b fun x => onHeld x h.p fun h => { h with occ := occ, ev := (updConsts g).2 }

/-- The lines of a group, by offset from its read cycle: line, parameter word of its plane, byte offset (R310). -/
def groupReads (h : Held) (j off : Nat) : List (Nat × Nat) :=
  let gb := if h.wideGrad then 128 else 64
  let ln (i word bytes extra : Nat) : Nat × Nat := (i, h.param word + bytes * j + extra)
  match off with
  | 0 => [ln 0 0 gb 0, ln 2 1 64 0]
  | 1 => [ln 3 2 64 0, ln 4 3 128 0]
  | 2 => ln 5 3 128 64 :: (if h.adam then [ln 6 4 128 0] else if h.wideGrad then [ln 1 0 gb 64] else [])
  | _ => if h.adam then ln 7 4 128 64 :: (if h.wideGrad then [ln 1 0 gb 64] else []) else []

/-- The lines a group writes, by offset from its write cycle: line number, data (R310). -/
def groupWrites (h : Held) (k : Nat × Nat × Nat) (j off : Nat) : List (Nat × Line) :=
  let rs := updGroup h k j
  let at' (word bytes extra : Nat) : Nat := (h.param word + bytes * j + extra) / 64
  let half (f : Nat × Nat × Nat × Events → Nat) (hi : Bool) : Line := ofElems 32 (((rs.drop (if hi then 16 else 0)).take 16).map f)
  match off with
  | 0 => [(at' 1 64 0, ofElems 16 (rs.map fun r => r.2.2.1 / 2 ^ 16)), (at' 2 64 0, ofElems 16 (rs.map fun r => r.2.2.1 % 2 ^ 16))]
  | 1 => [(at' 3 128 0, half (fun r => r.1) false), (at' 3 128 64, half (fun r => r.1) true)]
  | _ => if h.adam then [(at' 4 128 0, half (fun r => r.2.1) false), (at' 4 128 64, half (fun r => r.2.1) true)] else []

/-- The group and offset that fall on a cycle, counted from a first cycle (R310). -/
def groupAt (h : Held) (first t : Nat) : Option (Nat × Nat) :=
  if t < first then none
  else
    let j := (t - first) / h.groupTime
    if j < h.groups then some (j, (t - first) % h.groupTime) else none

/-- The reads of a UPD on this plan cycle (R310). -/
def State.updReads (s : State) (b : Nat) (h : Held) : State :=
  match groupAt h (h.p + 2) (s.brick b).now with
  | some (j, off) => if off ≤ 3 then (groupReads h j off).foldl (fun s r => s.updateRead b h (groupKey j r.1) r.2) s else s
  | none => s

/-- The writes of a UPD on this plan cycle, and its record at the last one (R310, R311). -/
def State.updWrites (s : State) (b : Nat) (h : Held) : State :=
  match groupAt h (h.p + 38) (s.brick b).now with
  | none => s
  | some (j, off) =>
    if 2 < off then s
    else
      let k := (updConsts h).1
      let s1 := s.onBrick b fun x => (groupWrites h k j off).foldl (fun x w => { x with ring := x.ring.writeLine w.1 w.2 false }) x
      let s2 := if off = 0 then s1.onBrick b fun x => onHeld x h.p fun h => h.raise j ((updGroup h k j).map fun r => r.2.2.2) else s1
      let g := ((s2.brick b).held.find? fun g => g.p == h.p).getD h
      if j + 1 = h.groups && off = (if h.adam then 2 else 1) && g.ev.any then s2.pollen b 39 (updateRec g) else s2

/-- UPD_START: the update unit on this plan cycle: the checks of UPD at P, its parameter line at P + 1 (R308 to R310). -/
def execUpdStart (b : Nat) (s : State) : Host.Outcome State Fault Refusal :=
  .next ((s.brick b).held.foldl (fun s h =>
    let t := (s.brick b).now
    if h.opc ≠ 0x40 || h.cancelled then s
    else if t = h.p then s.updNorm b h
    else if t = h.p + 1 then s.updParams b h
    else s) s)

/-- The update unit's reads of a plan cycle. -/
def State.updateReads (s : State) (b : Nat) (h : Held) : State :=
  if h.cancelled then s
  else if h.opc = 0x41 then s.unormReads b h
  else if h.opc = 0x40 && h.p + 2 ≤ (s.brick b).now then s.updReads b h
  else s

/-- The update unit's writes of a plan cycle. -/
def State.updateWrites (s : State) (b : Nat) (h : Held) : State :=
  if h.cancelled then s
  else if h.opc = 0x41 then s.unormWrite b h
  else if h.opc = 0x40 then s.updWrites b h
  else s

end Sys2Proof.Machine
end

