-- ==== Sys2Proof/Machine/Engine.lean ====
section
/-! DEFINITION. What the copy engine, the collective engine and the update unit of a brick do on one plan cycle: reads first,
then writes (R39, R142, R143, R165, R330). -/

namespace Sys2Proof.Machine

/-- COPY_BEAT: source lines are read, incoming lines taken, and lines with an error reach the engines; a line whose
read falls on the cycle of the first poisoned one is still read (R136, R143, R165; log entry 158). -/
def execCopyBeat (b : Nat) (s : State) : Host.Outcome State Fault Refusal :=
  .next ((s.brick b).held.foldl (fun s h =>
    let s1 := if h.isCopy then (s.copyReads b (s.heldNow b h)) else s
    let s2 := if h.isCopy then s1.copyPoison b (s1.heldNow b h) else s1
    let s3 := if h.isLink then (s2.takeLines b (s2.heldNow b h)) else s2
    let s4 := if h.isLink then s3.linkReads b (s3.heldNow b h) else s3
    let s5 := if h.isLink then (s4.linkPoison b (s4.heldNow b h)).linkSums b ((s4.linkPoison b (s4.heldNow b h)).heldNow b h) else s4
    let s6 := s5.atomicReads b (s5.heldNow b h)
    let s7 := s6.atomicPoison b (s6.heldNow b h)
    s7.updateReads b (s7.heldNow b h)) s)

/-- COPY_LINE_WRITE: the lines whose destination cycle this is perform, those of row reads in Course time and, where the brick's plan
cycle has passed, those of its other commands, a later command's over an earlier one's; commands that have had their last effect leave
(R142 to R144, R302; log entry 145). -/
def execCopyLineWrite (b : Nat) (s : State) : Host.Outcome State Fault Refusal :=
  let s0 := s.rowReadWrites b
  if !s.ran.contains b then .next s0
  else
  let s1 := (s0.brick b).held.foldl (fun s h =>
    let s1 := if h.opc = 0x10 || h.opc = 0x11 then s.copyWrites b (s.heldNow b h) else s
    let s2 := if h.opc = 0x12 then s1.decompressWrites b (s1.heldNow b h) else s1
    let s3 := if h.isLink then s2.linkWrites b (s2.heldNow b h) else s2
    s3.updateWrites b (s3.heldNow b h)) s0
  .next (s1.onBrick b fun x => { x with held := x.held.filter fun h => !h.finished x.now })

end Sys2Proof.Machine
end

