-- ==== Sys2Proof/Machine/Variable.lean ====
section
/-! DEFINITION. The variable boundary: CPYV, granules, the ends of transfers, AWAIT, FENCEV and VSTAT (R116, R117, R122 to R135,
R152, R165, R286, R324, R328, R394). -/

namespace Sys2Proof.Machine

/-- The outstanding command of a status word. -/
def findVar (x : Brick) (v : Nat) : Option VCmd := x.var.queue.find? fun c => c.vs == v

/-- The shape of CPYV is admitted; one that decodes obeys the rules of CPYD, whose destination is ring memory (R141, R152). -/
def variableShape (sh : Word) : Bool :=
  let sk := shapeSk sh
  let dk := shapeDk sh
  sk ≤ 1 && dk ≤ 1 && !(sk == 0 && dk == 0) &&
    shapeLen sh ≤ 32768 && (if shapeDec sh then sk == 1 && dk == 0 && shapeSc sh ≤ 5 && 8 * 2 ^ shapeSc sh ≤ shapeLen sh else fld sh.toNat 24 23 == 0)

/-- The target that an address names, where an entry covers it (R118). -/
def targetOf (p : Part) (pa : Nat) : Option Nat := (coveringEntry p pa).map fun i => (tget Range.reset p.ranges i).target

/-- A side of a CPYV names a variable target. -/
def variableSide (p : Part) (k : Nat) (w : Word) : Bool :=
  k == 1 && (match targetOf p w.toNat with | some t => !timedTarget t | none => false)

/-- Exactly one side is a variable target, as far as the sides' entries say what they are (R141). -/
def oneVariable (p : Part) (sk dk : Nat) (w0 w1 : Word) : Bool :=
  let known (k : Nat) (w : Word) : Bool := k != 1 || (targetOf p w.toNat).isSome
  variableSide p sk w0 != variableSide p dk w1 || !(known sk w0 && known dk w1)

/-- The translation of a side of a CPYV: a variable target, or the Yard where the other side is variable (R118, R120, R152). -/
def sideXlate (p : Part) (w : Word) (n : Nat) (wr other : Bool) : Xlate :=
  translate p w.toNat (64 * n) (!wr) wr (fun k => !timedTarget k || (k == 1 && other)) fun _ _ => false

/-- CPYV: accepted at t+0 (R125, R127, R152); its words are checked whatever the guard reads (R40), and of two sides that fail the
source is recorded (log entry 130). A variable virtual address that leaves its space ends it at once with code 10, at the first
byte beyond, or at the start of the chunk where it decodes (R122, R125). -/
def execCpyv (o : EnOp) (s : State) : Host.Outcome State Fault Refusal :=
  let x := s.cur
  let w0 := enWord x o 0
  let w1 := enWord x o 1
  let sh := enWord x o 2
  let n := shapeLen sh
  let sk := shapeSk sh
  let dk := shapeDk sh
  let s0 := s.foundIf (guardTrue x o.g && enUe x o 3) 0x0B 39
  let ring := dk = 0
  let p := s.part (s.partOf s.issue.brick)
  let ok := variableShape sh && (if sk = 0 then ringWord w0 n else w0.toNat % 64 == 0) &&
    (if ring then ringWord w1 n && w1.toNat % 4096 == 0 && n % 64 == 0 else w1.toNat % 64 == 0) && oneVariable p sk dk w0 w1
  .next (if !ok then s0.foundAt 0x01 39
    else if !guardTrue x o.g then s
    else
      let vs := variableSide p sk w0
      let vd := variableSide p dk w1
      let none' : Xlate := ⟨0, 0, 1, false, 0⟩
      let xs := if sk = 1 then sideXlate p w0 n false vd else none'
      let xd := if dk = 1 then sideXlate p w1 n true vs else none'
      if xs.cause ≠ 0 then s0.xlateCheck 39 xs w0.toNat
      else if xd.cause ≠ 0 then s0.xlateCheck 39 xd w1.toNat
      else
        let xv := if vs then xs else xd
        let cmd : VCmd := { opc := 0x13, w0 := w0, w1 := w1, w2 := sh, vs := fld o.imm 0 6, bar := 0, epoch := 0, writes := vd, target := xv.addr, kind := xv.kind, grans := [], side := if vs then (if ring then w1.toNat else xd.addr) else (if sk = 0 then w0.toNat else xs.addr), yard := if vs then !ring else sk = 1, paged := xv.paged }
        let s1 := s0.acceptVariable 39 (fld o.imm 6 5) cmd
        let untag (lat : Nat) (s : State) : State :=
          if vs && ring then
            (List.range (n / 64)).foldl (fun s g =>
              s.addFlight (s.plainFlight 39 lat (.tag (w1.toNat / 4096 + g)) (BitVec.ofNat 512 0xFFFF))) s
          else s
        let s2 := untag 1 s1
        let ext := 64 * (if shapeDec sh then shapeClen sh else n)
        if xv.paged && 2 ^ 48 < xv.addr + ext then
          (untag 0 s2).onCur fun x => endVariableAt x cmd.vs 10 (if shapeDec sh then 0 else 2 ^ 48 - xv.addr)
        else s2)

/-- A CPYV that decodes, and one that has not yet read its whole block (R152). -/
def VCmd.decodes (c : VCmd) : Bool := c.opc == 0x13 && shapeDec c.w2
def VCmd.gathers (c : VCmd) : Bool := c.decodes && !c.ready

/-- Lines of a CPYV's destination, or of the block that it reads first; bytes of a transfer; its granules, 4 KiB each, the last one
perhaps shorter (R125, R152). -/
def VCmd.lines (c : VCmd) : Nat := if c.gathers then shapeClen c.w2 else shapeLen c.w2
def VCmd.bytes (c : VCmd) : Nat := if c.opc = 0x13 then 64 * c.lines else c.size
def VCmd.granules (c : VCmd) : Nat := (c.bytes + 4095) / 4096
def VCmd.granBytes (c : VCmd) (g : Nat) : Nat := min 4096 (c.bytes - 4096 * g)

/-- The transfer writes its target: a CPYV out, or an HFLUSH down (R117, R286). -/
def VCmd.stores (c : VCmd) : Bool := if c.opc = 11 then c.side == 0 else c.writes

/-- The lines that a piece covers, each with its first byte and the byte after its last. -/
def VCmd.pieceLines (c : VCmd) (p : Piece) : List (Nat × Nat × Nat) :=
  let lo := 4096 * p.g + p.lo
  let hi := min (lo + p.n) (4096 * p.g + c.granBytes p.g)
  (List.range 65).filterMap fun j =>
    let i := lo / 64 + j
    let f := max lo (64 * i)
    let t := min hi (64 * (i + 1))
    if f < t then some (i, f - 64 * i, t - 64 * i) else none

/-- The bytes of a granule that have performed, with a piece's (R125). -/
def VCmd.after (c : VCmd) (p : Piece) : Nat :=
  tget 0 c.parts p.g ||| (2 ^ (min (p.lo + p.n) (c.granBytes p.g) - p.lo) - 1) * 2 ^ p.lo

/-- Some byte of line i has performed at the piece's end, and every one has. -/
def VCmd.wholeLine (c : VCmd) (p : Piece) (i : Nat) : Bool := fld (c.after p) (64 * i - 4096 * p.g) 64 == 2 ^ 64 - 1

/-- The address of line i of a transfer at its target (R118, R286). -/
def lineTarget (x : Brick) (c : VCmd) (i : Nat) : Nat :=
  if c.opc = 0x13 then c.target + 64 * i else match x.hod.flush with
    | some f => x.hod.flushAddr f i
    | none => c.target

/-- Where line i of a transfer lies: the code or 0, the target as R119 numbers it, the address (R122). -/
def State.varPlace (s : State) (n : Nat) (c : VCmd) (i : Nat) : Nat × Nat × Nat :=
  s.variablePlace (s.partOfHome n) c.paged c.kind (lineTarget (s.home n) c i) c.stores

/-- The lowest-numbered valid DMA window of a port that holds a request and admits it (R405). -/
def State.hostWindow (s : State) (port addr n : Nat) (wr : Bool) : Option Nat :=
  (List.range 8).find? fun i =>
    let w := tget (0xFFF * 2 ^ 64) s.mason.hdmaw (8 * port + i)
    fld w 0 1 = 1 && fld w (if wr then 2 else 1) 1 = 1 && fld w 12 52 * 4096 ≤ addr && addr + n - 1 ≤ fld w 76 52 * 4096 + 4095

/-- A host request lies within a valid DMA window of its port that admits it (R405). -/
def State.hostAdmits (s : State) (port addr n : Nat) (wr : Bool) : Bool := (s.hostWindow port addr n wr).isSome

/-- Update the outstanding command of a status word. -/
def onVar (x : Brick) (v : Nat) (f : VCmd → VCmd) : Brick :=
  { x with var := { x.var with queue := x.var.queue.map fun c => if c.vs = v then f c else c } }

/-- The granules of the destination in ring memory, where it lies there (R128). -/
def VCmd.tagged (c : VCmd) : List Nat :=
  if c.opc = 0x13 && !c.writes && !c.yard then (List.range ((64 * shapeLen c.w2 + 4095) / 4096)).map fun g => c.side / 4096 + g else []

/-- A write must wait for the writes accepted before an earlier FENCEV (R132). -/
def fenced (x : Brick) (c : VCmd) : Bool := c.writes && x.var.queue.any fun d => d.writes && d.epoch < c.epoch

/-- A transfer ends: on error its destination granules' tags are 0xFFFF; the word, the barrier; an HFLUSH is outstanding no more;
a write that it held back has its time from now (R125, R126, R128, R286). -/
def finishVar (x : Brick) (v code now : Nat) : Brick :=
  match findVar x v with
  | none => x
  | some c =>
    let y := if code = 0 then x else c.tagged.foldl (fun x g => setTag x g 0xFFFF#16) x
    let z := endVariable y v code
    { z with
      hod := if c.opc = 11 then { z.hod with flush := none, staged := [], stagedBad := [] } else z.hod
      var := { z.var with queue := z.var.queue.map fun d => if fenced x d && !fenced z d then { d with since := now } else d } }

/-- The end of a transfer that records the offset of the first fault, or of the chunk's start (R125). -/
def State.endAt (s : State) (n v code off : Nat) : State :=
  s.onHome n fun x =>
    match findVar x v with
    | some c => finishVar (setVs x v fun w => putFld w 32 32 (if c.decodes then 0 else min off (c.bytes - 1))) v code s.ct
    | none => x

/-- A line of ring memory as the engine reads it; a correctable error freezes a brick that runs (R167, R168). -/
def State.varRingRead (s : State) (n addr : Nat) : (Line × Bool) × State :=
  if n < 768 then
    let r := s.ringRead n addr 64
    ((bytesLine r.1, r.2.1), r.2.2)
  else
    let x := s.home n
    ((readLine x.ring.mem addr, !(markedWords x.ring.ue addr 64).isEmpty || x.ring.poison.contains (addr / 64)), s)

/-- Bytes f to t of a line of a transfer are to perform at its destination on this side of the boundary (R128, R136). -/
def VCmd.lineIn (n : Nat) (c : VCmd) (p : Piece) (l : Nat × Nat × Nat) (bytes : List Byte) (psn : Bool) : VarWrite :=
  { home := n, dest := if c.yard then 1 else 0, addr := if c.yard then c.side + 64 * l.1 + l.2.1 else (c.side + 64 * l.1) % 2 ^ 21 + l.2.1,
    bytes := bytes, psn := psn, whole := c.wholeLine p l.1 }

/-- A line with bytes laid over it from byte f on. -/
def overlay (d : Line) (f : Nat) (bs : List Byte) : Line :=
  let old := lineBytes d
  bytesLine (old.take f ++ bs ++ old.drop (f + bs.length))

/-- A variable-engine write performs: the bytes, and the poison of the line, which a line that the transfer has not yet filled keeps, as
it does the error marks of its other words (R128, R136, R328; log entry 141). -/
def State.performVar (s : State) (w : VarWrite) : State :=
  let a := w.addr / 64
  let f := w.addr % 64
  let left (marks kept : List Nat) : List Nat := if w.whole then kept else marksLeft marks w.addr w.bytes.length
  match w.dest with
  | 0 => (s.onHome w.home fun x =>
    let r := x.ring.writeLine a (overlay (readLine x.ring.mem (64 * a)) f w.bytes) (w.psn || (x.ring.poison.contains a && !w.whole))
    { x with ring := { r with ce := left x.ring.ce r.ce, ue := left x.ring.ue r.ue } }).syncImage w.home (s.home w.home)
  | 1 =>
    let t := s.yardWrite (64 * a) (overlay (readLine s.yard (64 * a)) f w.bytes) (w.psn || (s.yardPoison.contains a && !w.whole))
    { t with yardCe := left s.yardCe t.yardCe, yardUe := left s.yardUe t.yardUe }
  | _ =>
    { s with
      tier2 := writeBytes s.tier2 w.addr w.bytes
      tier2Poison := if w.psn then insNat a s.tier2Poison else if w.whole then without a s.tier2Poison else s.tier2Poison }

/-- The writes of the variable engines perform after every read of the cycle and before the timed writes, which prevail over them
(R129, R165). -/
def State.performVars (s : State) : State := s.varWrites.foldl State.performVar { s with varWrites := [] }

/-- Bytes go out to a variable target, from an offset of the transfer: into second-tier memory with the cycle's writes, to the host
or a namespace as a request. A host write is the last one through its window, behind which a read has still to go (R117, R132,
R328). -/
def State.lineOut (s : State) (n v off : Nat) (kind addr : Nat) (bytes : List Byte) (psn whole : Bool) : State :=
  match kind with
  | 2 => { s with varWrites := s.varWrites ++ [{ home := n, dest := 2, addr := addr, bytes := bytes, psn := psn, whole := whole }] }
  | 5 => s.emit (.nvmeWrite (Config.nvmePort addr % 4) addr bytes)
  | _ =>
    let port := kind - 3
    let win := (s.hostWindow port addr bytes.length true).getD 0
    (s.emit (.hostWrite port addr bytes)).onHome n fun x =>
      onVar x v fun c => { c with ports := (c.ports.filter fun q => q.port ≠ port || q.win ≠ win) ++ [⟨port, win, addr, off, false⟩] }

/-- What a line of the target holds: second-tier memory with its poison, or what the host or the namespace returned to a request
(R116, R117). -/
def State.lineFrom (s : State) (place : Nat × Nat × Nat) (f t : Nat) (bytes : List Byte) (psn : Bool) : (List Byte × Bool) × State :=
  match place.2.1 with
  | 2 => (((lineBytes (readLine s.tier2 place.2.2)).drop f |>.take (t - f), psn || s.tier2Poison.contains (place.2.2 / 64)), s)
  | k =>
    let data := (bytes ++ List.replicate (t - f) 0).take (t - f)
    ((data, psn), s.emit (if k = 5 then .nvmeRead (Config.nvmePort (place.2.2 + f) % 4) (place.2.2 + f) (t - f) else .hostRead (k - 3) (place.2.2 + f) (t - f)))

/-- The first line of a list whose place has a code, or lies outside the host's windows (R116, R122, R123, R126, R405). -/
def State.varTrouble (s : State) (n : Nat) (c : VCmd) (ls : List (Nat × Nat × Nat)) : Option (Nat × Nat) :=
  ls.findSome? fun l =>
    let p := s.varPlace n c l.1
    if p.1 ≠ 0 then some (p.1, 64 * l.1 + l.2.1)
    else if (p.2.1 = 3 || p.2.1 = 4) && !s.hostAdmits (p.2.1 - 3) (p.2.2 + l.2.1) (l.2.2 - l.2.1) c.stores then some (6, 64 * l.1 + l.2.1)
    else none

/-- A page code, 1, 2 or 9, pauses the transfer at an offset; any other code ends it (R126). -/
def State.varStops (s : State) (n v : Nat) (t : Nat × Nat) : State :=
  if t.1 = 1 || t.1 = 2 || t.1 = 9 then s.push [.event (.pageFault n v t.1 t.2)] else s.endAt n v t.1 t.2

/-- Each host window with writes outstanding is read behind the last of them, in its aligned four bytes; a read that no window
admits is not sent, and its transfer ends with code 6 (R132, R405; log entry 116). -/
def State.readPorts (s : State) (n : Nat) (p : VCmd → Bool) : State :=
  let due := ((s.home n).var.queue.filter fun c => c.writes && p c).flatMap fun c => (c.ports.filter fun q => !q.sent).map fun q => (c.vs, q)
  due.foldl (fun s d =>
    let at' := d.2.addr - d.2.addr % 4
    if s.hostAdmits d.2.port at' 4 false then
      (s.emit (.hostRead d.2.port at' 4)).onHome n fun x =>
        onVar x d.1 fun c => { c with ports := c.ports.map fun q => if q = d.2 then { q with sent := true } else q }
    else s.endAt n d.1 6 d.2.off) s

/-- The granules and the pieces that have performed, with a piece's (R125). -/
def VCmd.step (c : VCmd) (p : Piece) (now : Nat) : VCmd :=
  let m := c.after p
  if m = 2 ^ c.granBytes p.g - 1 then { c with grans := insNat p.g c.grans, parts := tdel c.parts p.g, since := now }
  else { c with parts := tput 0 c.parts p.g m, since := now }

/-- A piece has performed: with the last byte of a granule the granule counts and takes the tag, before a reset of the tag at the
cycle's end (log entry 135), with the last granule the transfer is done, unless a host window must be read first, or windows have
still to write (R125, R128, R132, R286). -/
def State.pieceDone (s : State) (n v : Nat) (c : VCmd) (p : Piece) : State :=
  let d := c.step p s.ct
  let full := d.grans.contains p.g
  let s1 := s.onHome n fun x =>
    let y := onVar x v fun e => { e with grans := d.grans, parts := d.parts, since := s.ct }
    let z := if full then setVs y v fun w => putFld w 12 20 (fld w 12 20 + 1) else y
    if !full || c.opc ≠ 0x13 || c.writes || c.yard then z else setTag z (c.side / 4096 + p.g) (BitVec.ofNat 16 (shapeTag c.w2))
  if d.grans.length ≠ c.granules then s1
  else if (match findVar (s1.home n) v with | some d => d.ports.isEmpty | none => true) then
    (if c.opc = 11 && c.side ≠ 0 then s1 else s1.push [.event (.variableDone n v ⟨0, 0⟩)])
  else s1.readPorts n fun d => d.vs == v

/-- The bytes that the target brings for a piece, line by line, each with its poison (R116, R117). -/
def State.pieceBytes (s : State) (n : Nat) (c : VCmd) (p : Piece) : List ((Nat × Nat × Nat) × List Byte × Bool) × State :=
  (c.pieceLines p).foldl (fun (acc : List ((Nat × Nat × Nat) × List Byte × Bool) × State) l =>
    let q := acc.2.lineFrom (acc.2.varPlace n c l.1) l.2.1 l.2.2 (p.data.drop (64 * l.1 + l.2.1 - (4096 * p.g + p.lo))) p.psn
    (acc.1 ++ [(l, q.1)], q.2)) ([], s)

/-- Bytes laid into a buffer of n bytes from byte lo on. -/
def layBytes (n lo : Nat) (buf bs : List Byte) : List Byte :=
  let old := (buf ++ List.replicate n 0).take n
  old.take lo ++ bs ++ old.drop (lo + bs.length)

/-- The bytes of a poisoned line that stand from f to t (R116). -/
def poisonBytes (f t : Nat) : List Byte := (lineBytes poisonLine).drop f |>.take (t - f)

/-- A piece of a transfer that brings the target's bytes in as they are: a line that came back as poison is written as poison, and
then ends the transfer with code 3 (R116, R125 to R129). -/
def State.pieceIn (s : State) (n v : Nat) (c : VCmd) (p : Piece) : State :=
  let r := s.pieceBytes n c p
  let s1 := if c.opc = 0x13 then
      { r.2 with
        varWrites := r.2.varWrites ++ r.1.map fun q =>
          c.lineIn n p q.1 (if q.2.2 then poisonBytes q.1.2.1 q.1.2.2 else q.2.1) q.2.2 }
    else r.2.onHome n fun x =>
      { x with hod := { x.hod with staged := layBytes c.bytes (4096 * p.g + p.lo) x.hod.staged (r.1.flatMap fun q => q.2.1) } }
  match r.1.find? fun q => q.2.2 with
  | some q => s1.endAt n v 3 (64 * q.1.1 + q.1.2.1)
  | none => s1.pieceDone n v c p

/-- A piece of a transfer that writes its target. A source line with an error ends a CPYV with code 3 (log entry 62); a staged line
goes out with its poison (R116, R286). -/
def State.pieceOut (s : State) (n v : Nat) (c : VCmd) (p : Piece) : State :=
  let ls := c.pieceLines p
  let h := (s.home n).hod
  let r := ls.foldl (fun (acc : List ((Nat × Nat × Nat) × Line × Bool) × State) l =>
    let q := if c.opc = 11 then ((bytesLine ((h.staged.drop (64 * l.1)).take 64), h.stagedBad.contains l.1), acc.2)
      else if c.yard then acc.2.yardRead (c.side + 64 * l.1)
      else acc.2.varRingRead n (c.side + 64 * l.1)
    (acc.1 ++ [(l, q.1)], q.2)) ([], s)
  match (if c.opc = 11 then none else r.1.find? fun q => q.2.2) with
  | some q => r.2.endAt n v 3 (64 * q.1.1 + q.1.2.1)
  | none =>
    (r.1.foldl (fun s q =>
      let place := s.varPlace n c q.1.1
      s.lineOut n v (64 * q.1.1 + q.1.2.1) place.2.1 (place.2.2 + q.1.2.1) ((lineBytes q.2.1).drop q.1.2.1 |>.take (q.1.2.2 - q.1.2.1)) q.2.2
        (c.wholeLine p q.1.1)) r.2).pieceDone n v c p

/-- The output of a CPYV that decodes, where its block is of no use: all its lines perform on this cycle, and the transfer ends at once
(R126, R151; log entry 66). -/
def State.spoil (s : State) (n v : Nat) (c : VCmd) (out : List (Line × Bool)) (code : Nat) : State :=
  { s with
    varWrites := s.varWrites ++ out.zipIdx.map fun (q : (Line × Bool) × Nat) => (
      { home := n, dest := 0, addr := (c.side + 64 * q.2) % 2 ^ 21, bytes := lineBytes q.1.1, psn := q.1.2, whole := true } : VarWrite) }.endAt n v code 0

/-- The output of a block of which a line came back as poison (R116; log entry 66). -/
def VCmd.poisoned (c : VCmd) : List (Line × Bool) := List.replicate (shapeLen c.w2) (poisonLine, true)

/-- What the block of a CPYV that decodes holds (R148, R149, R152). -/
def VCmd.decoded (c : VCmd) (block : List Byte) : Block := decodeBlock block (shapeN c.w2) (shapeSc c.w2) (shapeClen c.w2)

/-- A piece of the compressed block of a CPYV that decodes is read; with its last byte the block stands whole, and the output begins.
A line that comes back as poison ends the transfer at once with code 3, and a malformed block, poisoned and recorded as R151 states,
with code 7 (R116, R126, R152, R236; log entry 66). -/
def State.pieceGather (s : State) (n v : Nat) (c : VCmd) (p : Piece) : State :=
  let r := s.pieceBytes n c p
  let d := c.step p s.ct
  let whole := d.grans.length = c.granules
  let block := layBytes c.bytes (4096 * p.g + p.lo) c.block (r.1.flatMap fun q => q.2.1)
  if r.1.any fun q => q.2.2 then r.2.spoil n v c c.poisoned 3
  else if whole && (c.decoded block).code ≠ 0 then
    (r.2.onHome n fun x => { x with pollenNew := x.pollenNew ++ [(39, blockRec (c.decoded block) c.pc c.issue)] }).spoil n v c
      (blockLines (c.decoded block) (shapeLen c.w2)) 7
  else
    r.2.onHome n fun x => onVar x v fun e =>
      { e with
        block := block
        ready := whole
        grans := if whole then [] else d.grans
        parts := if whole then [] else d.parts
        since := s.ct }

/-- A piece of the output of a CPYV that decodes, whose block is well formed (R149, R152; log entry 66). -/
def State.pieceDecoded (s : State) (n v : Nat) (c : VCmd) (p : Piece) : State :=
  let out := blockLines (c.decoded c.block) c.lines
  { s with
    varWrites := s.varWrites ++ (c.pieceLines p).map fun (l : Nat × Nat × Nat) =>
      let o := out.getD l.1 (0, false)
      c.lineIn n p l ((lineBytes o.1).drop l.2.1 |>.take (l.2.2 - l.2.1)) o.2 }.pieceDone n v c p

/-- The engine can carry out a piece now: its transfer is not paused nor held by FENCEV, and an HFLUSH moves units only while its
task runs, and out of the staging once all are staged (R126, R132, R286, R394). -/
def Brick.carries (x : Brick) (n : Nat) (c : VCmd) : Bool :=
  !(tget 0 x.var.vs c.vs).getLsbD 3 && !fenced x c &&
    (c.opc ≠ 11 || (n < 768 && (c.side ≠ 0 || x.hod.staged.length == c.size)))

/-- A piece is held back for a later cycle. -/
def State.holdBack (s : State) (n v : Nat) (p : Piece) : State :=
  s.onHome n fun x => { x with var := { x.var with back := x.var.back ++ [(v, p)] } }

/-- The target has returned poison for the byte at an offset: the rest of its line performs as poison, and the transfer ends; of one
that decodes the whole output does. A line of the Yard is a piece of the next cycle, which the banks
count and rank (R116, R125, R126, R134, R135; log entries 66 and 133). -/
def State.poisonAt (s : State) (n v : Nat) (c : VCmd) (off : Nat) : State :=
  let at' := min off (c.bytes - 1)
  let p : Piece := ⟨at' / 4096, at' % 4096, 64 - at' % 64, true, []⟩
  let comesIn := c.opc = 0x13 && !c.stores
  if c.decodes then s.spoil n v c c.poisoned 3
  else if comesIn && c.yard && !c.grans.contains p.g then s.holdBack n v p
  else
    { s with
      varWrites := s.varWrites ++ (if comesIn && !c.yard then
        (c.pieceLines p).map fun (l : Nat × Nat × Nat) => c.lineIn n p l (poisonBytes l.2.1 l.2.2) true else []) }.endAt n v 3 off

/-- VARIABLE_GRANULE: what the boundary brings performs: bytes d.lo to d.lo + d.n - 1 of granule g of the transfer of status word v. What
FENCEV or a pause holds back comes again on a later cycle (R125 to R129, R132, R286, R324, R394). -/
def execVariableGranule (b v g : Nat) (d : Brought) (s : State) : Host.Outcome State Fault Refusal :=
  let p : Piece := ⟨g, d.lo, d.n, d.psn, d.data⟩
  let x := s.home b
  .next ((match findVar x v with
    | none => s
    | some c =>
      if c.opc = 7 || c.granules ≤ g || c.grans.contains g then s
      else if !x.carries b c then s.holdBack b v p
      else if c.decodes && c.ready then s.pieceDecoded b v c p
      else match s.varTrouble b c (c.pieceLines p) with
        | some t => s.varStops b v (t.1, if c.decodes then 0 else t.2)
        | none => if c.decodes then s.pieceGather b v c p else if c.stores then s.pieceOut b v c p else s.pieceIn b v c p).syncImage b x)

/-- The pieces of this cycle: those held back, then those the boundary brings (R125). -/
def State.pieces (s : State) : List (Nat × Nat × Piece) :=
  ((s.homesWith fun x => !x.var.back.isEmpty).flatMap fun n => (s.home n).var.back.map fun q => (n, q.1, q.2)) ++
    s.inputs.filterMap fun i =>
      match i.2 with
      | .variableGranule b v g d => if i.1 ≤ s.ct then some (b, v, ⟨g, d.lo, d.n, d.psn, d.data⟩) else none
      | _ => none

/-- A piece that its transfer does not hold back as the cycle begins (R126, R132). -/
def State.pieceGoes (s : State) (q : Nat × Nat × Piece) : Bool :=
  let x := s.home q.1
  match findVar x q.2.1 with
  | some c => c.opc = 7 || x.carries q.1 c
  | none => true

/-- The Yard lines that a piece uses on this cycle (R134). -/
def State.pieceYard (s : State) (q : Nat × Nat × Piece) : List Nat :=
  match findVar (s.home q.1) q.2.1 with
  | some c =>
    let ls := c.pieceLines q.2.2
    if c.opc = 0x13 && c.yard && s.pieceGoes q && !c.grans.contains q.2.2.g && (s.varTrouble q.1 c ls).isNone then
      ls.map fun l => c.side + 64 * l.1
    else []
  | none => []

/-- The accesses of the cycle to the Yard, with those of the variable engines (R134, R135). -/
def State.yardTurn (s : State) : State × List Bool := s.yardArbitrate (s.pieces.map s.pieceYard)

/-- The pieces of the cycle that the banks let through, and that stand to perform as it begins, become its work; the others wait
(R132, R134, R135; log entry 33). -/
def State.takePieces (s : State) (go : List Bool) : State × List Todo :=
  let ps := s.pieces.zipIdx
  let isPiece : Instr → Bool := fun i => match i with | .variableGranule _ _ _ _ => true | _ => false
  let s1 := (s.homesWith fun x => !x.var.back.isEmpty).foldl (fun s n =>
    s.onHome n fun x => { x with var := { x.var with back := [] } })
    { s with inputs := s.inputs.filter fun i => !(i.1 ≤ s.ct && isPiece i.2) }
  ps.foldl (fun (acc : State × List Todo) q =>
    let p := q.1.2.2
    if go.getD q.2 true && s.pieceGoes q.1 then
      (acc.1, acc.2 ++ [.event (.variableGranule q.1.1 q.1.2.1 p.g ⟨p.lo, p.n, p.psn, p.data⟩)])
    else (acc.1.holdBack q.1.1 q.1.2.1 p, acc.2)) (s1, [])

/-- The end of an HFLUSH down: those of its units that HBM still holds are in the deep region and their slots free (R286). -/
def flushDown (x : Brick) : Brick :=
  let n := match x.hod.flush with | some f => f.live | none => 0
  { x with hod := { x.hod with hbmUnits := x.hod.hbmUnits - n, deepUnits := x.hod.deepUnits + n } }

/-- The transfer of a sealed child ends: with code 0 its words, wherever they are held, land above the parent's SPLIT block and fill its
entry, or the entry fails under code 4; with another code the entry fails. The child closes. The parent is the child's own task's brick,
where it has one, parked or not; where operations issued before its HSPLIT are still in flight the arrival takes its place behind them
(R126, R270, R280, R393; log entry 149). -/
def State.endSeal (s : State) (b code off : Nat) : State :=
  let x := s.home b
  let h := x.hod
  let p := fld h.cfg.toNat 0 10
  let idx := fld h.cfg.toNat 10 6
  match x.var.queue.find? fun c => c.opc == 7 with
  | none => s
  | some cmd =>
    if h.core.mode ≠ .sealing then s else
    let task := if b < 768 then x.task else some (b / 768 - 1)
    let ph := (task.bind fun t => s.homeOf t p).getD p
    let parent := s.home ph
    let stands := parent.hod.core.mode == .splitWait
    let c := if stands then parent.hod.core else (parent.hod.seen (parent.seq.clk - 1)).core
    let same := match c.block with | some r => r.tag == h.splitTag | none => false
    let inPart := (s.part (s.partOfHome b)).bricks.contains p
    let entry := if inPart && c.mode = .splitWait && same then c.childOf idx else none
    let ws := s.stackWords b h.core 0 h.core.top
    let fits := c.top + ws.length - c.bot + parent.hod.coming ≤ streamWords
    let ok := code = 0 && (match entry with | some k => k.state == 0 | none => false) && fits
    let after := match entry with
      | some k => if ok then c.arrive k h.core ws else c.failChild k.idx
      | none => c
    let f : HodFlight :=
      { due := parent.seq.clk - 1, opc := 13, op := ⟨⟨false, false, 0, 0⟩, false, 0, 0, 0, 0, 0⟩, fmt := 0, freqs := [], prec := 0, lt := 0,
        left := 0, lines := [], child := some idx, clk := parent.seq.clk - 1, held := if ok then ws else [], pc := 0, issue := 0,
        kid := if ok then some h.core else none }
    let s1 := s.onHome ph fun y =>
      { y with
        hod := if stands then { y.hod with core := after }
          else if entry.isSome then { y.hod with flights := y.hod.flights ++ [f] }
          else y.hod }
    let grans := (2 * ws.length + 4095) / 4096
    ((s1.onHome b fun x =>
      let w := (tget 0 x.var.vs cmd.vs).toNat
      let x1 := if ok then { x with var := { x.var with vs := tput 0 x.var.vs cmd.vs (BitVec.ofNat 64 (w + grans % 2 ^ 20 * 2 ^ 12)) } }
        else if code ≠ 0 then setVs x cmd.vs fun w => putFld w 32 32 (min off (2 * ws.length - 1))
        else x
      let z := endVariable x1 cmd.vs (if code ≠ 0 then code else if ok then 0 else 4)
      { z with hod := { z.hod.emptied with core := { HodCore.reset with ell := h.core.ell } } }).syncImage b x).syncImage ph (s.home ph)

/-- VARIABLE_DONE: a transfer ends. The target's own codes 3 and 4 come from outside with the offset of the fault; no other code is
the target's to give. A transfer ends well
only when all its granules have performed and the reads behind its host writes have come back; an HFLUSH ends so only while its
task runs; a sealed child's closes with its entry failed (R125, R126, R132, R280, R286, R394). -/
def execVariableDone (b v : Nat) (e : VarEnd) (s : State) : Host.Outcome State Fault Refusal :=
  let x := s.home b
  .next ((match findVar x v with
    | none => s
    | some c =>
      if c.opc = 7 && (e.code = 3 || e.code = 4) then s.endSeal b e.code e.off
      else if e.code = 3 then s.poisonAt b v c e.off
      else if e.code = 4 then s.endAt b v 4 e.off
      else if e.code ≠ 0 || c.opc = 7 || c.gathers || c.grans.length ≠ c.granules || c.ports.any fun q => !q.sent then s
      else if c.opc = 0x13 then s.onHome b fun x => finishVar x v 0 s.ct
      else if c.side = 0 && b < 768 then s.onHome b fun x => finishVar (flushDown x) v 0 s.ct
      else s).syncImage b x)

/-- PAGE_FAULT: a page code, 1, 2 or 9, pauses the transfer at an offset, and the Mason is told; FOFF holds the latest fault of a
transfer that was resumed (log entry 142). The codes 3 to 7 and 10 end it at once, and no other is ever written (R125, R126). -/
def execPageFault (b v code off : Nat) (s : State) : Host.Outcome State Fault Refusal :=
  .next ((match findVar (s.home b) v with
    | none => s
    | some c =>
      if c.opc = 7 then s
      else if code = 1 || code = 2 || code = 9 then
        (s.onHome b fun x => setVs x v fun w => putFld (putFld (putFld w 3 1 1) 8 4 code) 32 32 off).emit
          (.pageFault (b % 768) v code)
      else if code = 3 then s.poisonAt b v c off
      else if (4 ≤ code && code ≤ 7) || code = 10 then s.endAt b v code off
      else s).syncImage b (s.home b))

/-- The offset of the first byte of a transfer that has not performed. -/
def VCmd.undone (c : VCmd) : Nat :=
  match (List.range c.granules).find? fun g => !c.grans.contains g with
  | some g => 4096 * g + (((List.range 4096).find? fun i => !(tget 0 c.parts g).testBit i).getD 0)
  | none => 0

/-- Since when a transfer waits for an answer of its target: not while it is paused, held by FENCEV, writes out what it
has decoded, or is an HFLUSH whose windows have
still to come (R126). -/
def Brick.waitsSince (x : Brick) (n : Nat) (c : VCmd) : Option Nat :=
  if c.opc = 7 || !x.carries n c || (c.decodes && c.ready) || (c.opc = 11 && c.grans.length = c.granules) then none else some c.since

/-- Transfers whose target has not answered for 2^20 cycles (R126). -/
def State.overdue (s : State) : List Todo :=
  (s.homesWith fun x => !x.var.queue.isEmpty).flatMap fun n =>
    let x := s.home n
    x.var.queue.filterMap fun c =>
      match x.waitsSince n c with
      | some t => if t + 2 ^ 20 ≤ s.ct then some (.event (.completionTimeout n c.vs)) else none
      | none => none

/-- COMPLETION_TIMEOUT: the target has not answered within 2^20 cycles, and the transfer ends with code 5 at the first byte that has
not performed (R126; log entry 117). -/
def execCompletionTimeout (b v : Nat) (s : State) : Host.Outcome State Fault Refusal :=
  let x := s.home b
  .next ((match findVar x v with
    | none => s
    | some c =>
      match x.waitsSince b c with
      | some t => if t + 2 ^ 20 ≤ s.ct then s.endAt b v 5 c.undone else s
      | none => s).syncImage b x)

/-- VPRESP_RESUME: a paused transfer begins again at the faulting page, one that decodes at the start of its block, of which nothing
counts any more (R126). -/
def execVprespResume (b v : Nat) (s : State) : Host.Outcome State Fault Refusal :=
  .next ((match findVar (s.home b) v with
    | none => s
    | some c =>
      if !(tget 0 (s.home b).var.vs v).getLsbD 3 then s
      else s.onHome b fun x =>
        let dec := c.decodes
        let y := setVs x v fun w =>
          let w := putFld (putFld (putFld w 3 1 0) 8 4 0) 4 1 1
          if dec then putFld w 12 20 0 else w
        onVar y v fun d =>
          if dec then { d with grans := [], parts := [], block := [], ready := false, since := s.ct } else { d with since := s.ct }).syncImage b (s.home b))

/-- VPRESP_ABORT: a paused transfer ends with code 8 (R126). -/
def execVprespAbort (b v : Nat) (s : State) : Host.Outcome State Fault Refusal :=
  .next ((match findVar (s.home b) v with
    | none => s
    | some _ =>
      if !(tget 0 (s.home b).var.vs v).getLsbD 3 then s
      else s.onHome b fun x => finishVar (setVs x v fun w => putFld w 3 1 0) v 8 s.ct).syncImage b (s.home b))

/-- CHILD_ARRIVAL: the transfer of a sealed child reaches its end (R280). -/
def execChildArrival (b : Nat) (s : State) : Host.Outcome State Fault Refusal := .next (s.endSeal b 0 0)

/-- VPINV: the engines keep no translation here, so there is none to invalidate (R124). -/
def execVpinv (s : State) : Host.Outcome State Fault Refusal := .next s

/-- The brick as its cycle began. -/
def State.began (s : State) : Brick := s.issue.start.getD s.cur

/-- AWAIT: the bundle waits while the barrier's count was not zero as the cycle began (R130, R131). -/
def execAwait (o : EnOp) (s : State) : Host.Outcome State Fault Refusal :=
  let x := s.cur
  .next (if guardTrue x o.g && tget 0 s.began.var.barriers (barrierOf x (o.imm % 32)) ≠ 0 then
      { s with issue := { s.issue with wait := true } }
    else s)

/-- Later writes are ordered after every earlier one (R132). -/
def raiseFence (x : Brick) : Brick := { x with var := { x.var with epoch := x.var.epoch + 1 } }

/-- FENCEV order (R132). -/
def execFencevOrder (o : EnOp) (s : State) : Host.Outcome State Fault Refusal :=
  .next (if guardTrue s.cur o.g then s.onCur raiseFence else s)

/-- FENCEV done: the bundle waits until every variable write accepted before it has performed, and the host ports with writes
outstanding are read (R132). -/
def execFencevDone (o : EnOp) (s : State) : Host.Outcome State Fault Refusal :=
  .next (if !guardTrue s.cur o.g then s
    else if s.began.var.queue.any (·.writes) then { s with issue := { s.issue with wait := true, portReads := true } }
    else s.onCur raiseFence)

/-- VSTAT: the status word as the cycle began lands at t+3; a clear of a word that is not BUSY performs at t+0, before what the
engine sets on that cycle: a command that the bundle itself accepts is kept (R133). -/
def execVstat (o : EnOp) (s : State) : Host.Outcome State Fault Refusal :=
  let x := s.cur
  let n := o.imm % 64
  let v := tget 0 s.began.var.vs n
  .next (if !guardTrue x o.g then s
    else
      let s1 := s.addFlight (s.plainFlight 39 3 (.sreg o.a.index) (v.setWidth 512))
      if fld o.imm 6 1 = 1 && !v.getLsbD 0 && tget 0 x.var.vs n == v && !s.issue.taken.contains n then s1.onCur fun x => { x with var := { x.var with vs := tput 0 x.var.vs n 0 } } else s1)

end Sys2Proof.Machine
end

