-- ==== Sys2Proof/Machine/SysRegs.lean ====
section
/-! DEFINITION. The system registers: what MFSR reads, what MTSR writes and when (R197, and the register tables of the
chapters). -/

namespace Sys2Proof.Machine

/-- A 64-bit word from a number. -/
def word64 (n : Nat) : Word := BitVec.ofNat 64 n

/-- BOOTSTAT (R400). -/
def State.bootStat (s : State) : Word :=
  word64 (s.mason.phase % 8 + s.mason.ready.toNat * 2 ^ 3 + s.mason.fcode % 16 * 2 ^ 4 + s.mason.fwver % 2 ^ 32 * 2 ^ 32)

/-- RANKINFO (R357). -/
def State.rankInfo (s : State) : Word :=
  word64 (s.rank % 2 ^ 12 + (s.ranktbl.filter fun e => fld e.2 12 1 == 1).length % 2 ^ 12 * 2 ^ 12)

/-- TBSTAT; OVER as it stands for a brick that has not cleared it: Φ has reached 64 (R337, R357). -/
def State.tbStat (s : State) : Word :=
  word64 (min s.tb.held 0xFFFFFFFF + s.tb.lock.toNat * 2 ^ 32 + s.tb.wasOver.toNat * 2 ^ 33)

/-- TBSTAT as brick b reads it: OVER is clear where the brick had cleared it as the cycle began (R197, R357). -/
def State.tbRead (s : State) (b : Nat) : Word :=
  if s.overAt.contains b then tget 0 s.regsAt 0x02D &&& ~~~(0x200000000 : Word) else tget 0 s.regsAt 0x02D

/-- TASKINFO; its queue's base rank as the cycle began (R197, R376). -/
def State.taskInfo (s : State) (t : Task) : Word :=
  word64 (t.launchId % 2 ^ 32 + t.queue % 32 * 2 ^ 32 + (tget Queue.reset (tget Part.reset s.partsAt t.part).queues t.queue).base % 8 * 2 ^ 37 +
    t.timed.toNat * 2 ^ 40 + t.asap.toNat * 2 ^ 41 + t.pre.toNat * 2 ^ 42)

/-- A mask of 16 bits with a bit for each number listed. -/
def mask16 (l : List Nat) : Nat := ((List.range 16).map fun k => if l.contains k then 2 ^ k else 0).sum

/-- MXSTATE (R250). -/
def mxState (x : Brick) : Word :=
  word64 (mask16 x.mx.accPoison + mask16 x.mx.omPoison * 2 ^ 16 + mask16 x.mx.claim * 2 ^ 32)

/-- The value of system register n for brick b, which stood at x as the cycle began (R197). -/
def State.sysRead (s : State) (b : Nat) (x : Brick) (n : Nat) : Word :=
  let k := s.partOf b
  let p := tget Part.reset s.partsAt k
  let t := match x.task with
    | some t => s.task t
    | none => Task.none
  if n = 0x000 then word64 s.ct
  else if n = 0x004 ∨ n = 0x02C ∨ n = 0x033 ∨ n = 0x042 then tget 0 s.regsAt n
  else if n = 0x001 then word64 x.seq.pt
  else if n = 0x002 then word64 (x.seq.lag % 2 ^ 32)
  else if n = 0x003 then word64 (t.steptag % 2 ^ 32)
  else if n = 0x005 then word64 (b % 2 ^ 10 + k % 8 * 2 ^ 10)
  else if n = 0x006 then x.workid
  else if n = 0x007 then word64 (t.widths % 2 ^ 36)
  else if 0x008 ≤ n ∧ n ≤ 0x00F then word64 (tget 0 x.seq.rrb (n - 8) + tget 0 x.seq.prb (n - 8) * 2 ^ 9)
  else if 0x010 ≤ n ∧ n ≤ 0x01F then t.args.getD (n - 0x010) 0
  else if n = 0x020 then word64 x.seq.depth
  else if n = 0x021 then word64 x.pollen.length
  else if n = 0x028 then word64 (p.wiltStale + p.wiltFresh * 2 ^ 32)
  else if n = 0x027 then tget (sysGet x n) s.normsAt b
  else if n = 0x02D then s.tbRead b
  else if n = 0x02E then s.taskInfo t
  else if n = 0x030 then x.trap.recLo
  else if n = 0x031 then x.trap.recHi
  else if n = 0x040 then word64 p.htstep
  else if n = 0x041 then p.htfstat
  else if n = 0x046 then p.vptroot
  else if n = 0x04B then mxState x
  else if 0x050 ≤ n ∧ n ≤ 0x05F then s.window (dieOf b) (n - 0x050)
  else if 0x100 ≤ n ∧ n ≤ 0x1FF then
    let e := tget Range.reset p.ranges ((n - 0x100) / 4)
    match n % 4 with
    | 0 => e.base
    | 1 => e.limit
    | 2 => e.offset
    | _ => e.attr
  else sysGet x n

/-- Registers whose only software write clears bits that hardware sets or counts: the write performs after the cycle's
hardware updates, and no operation acts on them (R197). -/
def clearsOnly (n : Nat) : Bool :=
  [0x029, 0x02A, 0x02D, 0x041, 0x043, 0x047, 0x048, 0x049, 0x04A, 0x04F].contains n

/-- Clear V where the value written has bit 0 set (R11). -/
def clearValid (old v : Word) : Word := if v.getLsbD 0 then old &&& ~~~(1 : Word) else old

/-- The effect of writing v to system register n (R197, R230, R306, R357, R95, R130, R172, R262). -/
def State.writeSys (s : State) (b n : Nat) (v : Word) : State :=
  let x := s.brick b
  let w := v.toNat
  if n = 0x023 then
    let level := if fld w 0 3 = 6 then 7 else fld w 0 3
    s.setBrick b (sysSet x n (word64 (level + fld w 8 6 * 2 ^ 8)))
  else if n = 0x024 then
    let y := sysSet x n (word64 (fld w 0 6 + fld w 8 4 * 2 ^ 8))
    s.setBrick b { y with formats := tput 0 y.formats (fld w 0 6) (fld w 8 4) }
  else if n = 0x026 then s.setBrick b (writeNorm s x v)
  else if n = 0x02B then s.setBrick b (sysSet x n (word64 (fld w 0 32)))
  else if n = 0x02D then (if v.getLsbD 33 then { s with tb := { s.tb with overClear := insNat b s.tb.overClear } } else s)
  else if n = 0x040 then
    if fld w 0 14 ≤ 15257 then s.onPart (s.partOf b) fun p => { p with htstep := fld w 0 14 } else s
  else if n = 0x041 then s.onPart (s.partOf b) fun p => { p with htfstat := clearValid p.htfstat v }
  else if n = 0x045 then
    let level := if fld w 5 3 = 6 then 7 else fld w 5 3
    s.setBrick b (sysSet x n (word64 (fld w 0 5 + level * 2 ^ 5 + fld w 8 5 % (fld w 0 5 + 1) * 2 ^ 8)))
  else if n = 0x049 then
    let old := (sysGet x n).toNat
    s.setBrick b (sysSet x n (word64 ((if fld w 0 32 = 0 then 0 else fld old 0 32) +
      (if fld w 32 32 = 0 then 0 else fld old 32 32) * 2 ^ 32)))
  else if n = 0x04C then s.setBrick b (sysSet x n (v &&& 0x0000FFFF3FFFFFFF#64))
  else if n = 0x04D ∨ n = 0x04E then s.setBrick b (sysSet x n v)
  else if n = 0x027 ∨ clearsOnly n then s.setBrick b (sysSet x n (clearValid (sysGet x n) v))
  else s

/-- An MTSR performs at t+1, and again after the hardware updates of that cycle (R197). HTSTEP is its partition's: it is written
once the brick's cycle is known to pass (R379). The WILT counts are cleared by reads alone (R11, R304). -/
def State.landSys (s : State) (b : Nat) (f : Flight) (n : Nat) : State :=
  let v := f.value.setWidth 64
  let s1 := if n = 0x028 then s else s.onBrick b fun x => { x with mtsr := x.mtsr ++ [(n, v)] }
  if clearsOnly n || n == 0x040 then s1 else s1.writeSys b n v

/-- The partition's registers that a brick's cycle wrote or read clear: HTSTEP is written before the timelines read it, the WILT
counts lose what was read (R95, R197, R304). -/
def State.landSteps (s : State) (b : Nat) : State :=
  (s.brick b).mtsr.foldl (fun s w =>
    if w.1 = 0x040 then s.writeSys b w.1 w.2
    else if w.1 = 0x028 then
      let was := tget Part.reset s.partsAt (s.partOf b)
      s.onPart (s.partOf b) fun p =>
        { p with wiltStale := p.wiltStale - was.wiltStale, wiltFresh := p.wiltFresh - was.wiltFresh }
    else s) s

/-- The MTSR writes of a cycle prevail over its hardware updates (R197). -/
def State.settleSys (s : State) (b : Nat) : State :=
  ((s.brick b).mtsr.foldl (fun s w => s.writeSys b w.1 w.2) s).onBrick b fun x => { x with mtsr := [] }

/-- Registers with fields that a read clears (R197). -/
def readClears (n : Nat) : Bool := n == 0x022 || n == 0x028 || n == 0x032 || n == 0x049

/-- A counter less the value that was read: increments of the cycle of the read count after it (R304). -/
def minusHalves (now was : Nat) : Nat :=
  fld now 0 32 - fld was 0 32 + (fld now 32 32 - fld was 32 32) * 2 ^ 32

/-- The RC fields of a register that brick b read clear (R197); those of the partition's WILTSTAT once the brick's cycle is known to
pass. -/
def State.clearRead (s : State) (b : Nat) (start : Brick) (n : Nat) : State :=
  if n = 0x028 then s.onBrick b fun x => { x with mtsr := x.mtsr ++ [(n, 0)] }
  else s.onBrick b fun x => sysSet x n (word64 (minusHalves (sysGet x n).toNat (sysGet start n).toNat))

/-- The system registers as a cycle began, with the VBCFG that the bundles removed before this issue have left; an MTSR that lands on
the cycle is not among them (R44, R177, R197). -/
def removedSys (start saved : Brick) : Table Word :=
  if saved.mtsr.any fun w => w.1 == 0x045 then start.sys else tput 0 start.sys 0x045 (sysGet saved 0x045)

/-- The brick as MFSR reads it: as the cycle began, with the loop levels and the VBCFG that the bundles removed before this issue have
left (R44, R177, R197, log entry 49). -/
def State.readView (s : State) : Brick :=
  let x := s.began
  match s.issue.saved with
  | some y => { x with seq := { x.seq with depth := y.seq.depth }, sys := removedSys x y }
  | none => x

/-- MFSR: the register as it stands at the start of t lands at t+1; RC fields clear at t (R197). -/
def execMfsr (o : SlotOp) (s : State) : Host.Outcome State Fault Refusal :=
  let v := s.sysRead s.issue.brick s.readView o.mod
  let s1 := scalarOp o [] 1 (.sreg o.dst.index) (fun _ => v) s
  if guardTrue s.cur o.g && readClears o.mod then
    .next { s1 with issue := { s1.issue with clears := s1.issue.clears ++ [o.mod] } }
  else .next s1

/-- MTSR: the register is written at t+1; the unit's latch stays (R191, R197). -/
def execMtsr (o : SlotOp) (s : State) : Host.Outcome State Fault Refusal :=
  let x := s.cur
  if guardTrue x o.g then
    .next ((s.foundIf (scalarUe x o.a) 0x0B o.pos).addFlight
      (s.plainFlight o.pos 1 (.sys o.mod) ((scalarVal x o.a).setWidth 512)))
  else .next s

end Sys2Proof.Machine
end

