-- ==== Sys2Proof/Machine/VectorZ.lean ====
section
/-! DEFINITION. The Z units: the Herringbone store, shuffles, functions, the cross-cluster copy and the lane instructions
(R163, R164, R210 to R214). -/

namespace Sys2Proof.Machine

/-- A pattern of the active bank that reads with an uncorrectable error (R204). -/
def State.patternCheck (s : State) (o : SlotOp) : State :=
  let x := s.cur
  s.foundIf (guardTrue x o.g && x.vec.ue.contains (8320 + x.vec.activeBank * 64 + o.mod % 64)) 0x0B o.pos

/-- A fused shuffle-and-operate (R212). -/
def vecFused (o : SlotOp) (w : Nat) (f : Nat → Nat → Nat × Events) (s : State) : State :=
  let pat := patternOf s.cur (o.mod % 64)
  vecOp o [o.a, o.b] 3 w (fun a b _ => .zip w f (shuffle pat a) b) (s.patternCheck o)

/-- A function of one F32 operand (R213). -/
def vecFun (o : SlotOp) (lat : Nat) (f : Nat → Nat × Events) (s : State) : State :=
  vecOp o [o.a] lat 32 (fun a _ _ => .map1 32 f a) s

/-- Ring distance between two stations (R70). -/
def ringDistance (i j : Nat) : Nat :=
  let d := if i ≤ j then j - i else i - j
  min d (20 - d)

/-- VSHUF (R211). -/
def execVshuf (o : SlotOp) (s : State) : Host.Outcome State Fault Refusal :=
  .next (let pat := patternOf s.cur (o.mod % 64)
    vecOp o [o.a] 2 32 (fun a _ _ => .quiet (shuffle pat a)) (s.patternCheck o))

/-- VHBSWAP: the active bank changes from t+1 (R211). -/
def execVhbswap (o : SlotOp) (s : State) : Host.Outcome State Fault Refusal :=
  .next (if guardTrue s.cur o.g then s.addFlight (s.plainFlight o.pos 1 .bankSwap 0) else s)

/-- VHBLD: a pattern of the bank inactive at t, from t+2 (R211). -/
def execVhbld (o : SlotOp) (s : State) : Host.Outcome State Fault Refusal :=
  let x := s.cur
  let m := guardBits x o.g
  if m = 0 then .next s
  else
    let a := (clusterVal x (clusterOf o.pos) 32 o.a).getD 0
    .next ((s.clusterChecks o [o.a]).addFlight
      { s.plainFlight o.pos 2 (.pattern (1 - x.vec.activeBank) (o.mod % 64)) a with mask := m })

/-- VSHADD.I32 (R212). -/
def execVshaddI32 (o : SlotOp) (s : State) : Host.Outcome State Fault Refusal :=
  .next (vecFused o 32 (fun a b => ((a + b) % 2 ^ 32, .none)) s)

/-- VSHADD.F32 (R212). -/
def execVshaddF32 (o : SlotOp) (s : State) : Host.Outcome State Fault Refusal :=
  .next (vecFused o 32 f32.add s)

/-- VSHMAX.F32 (R212). -/
def execVshmaxF32 (o : SlotOp) (s : State) : Host.Outcome State Fault Refusal :=
  .next (vecFused o 32 (f32.minmax true) s)

/-- VSHMIN.F32 (R212). -/
def execVshminF32 (o : SlotOp) (s : State) : Host.Outcome State Fault Refusal :=
  .next (vecFused o 32 (f32.minmax false) s)

/-- VSHADD.BF16 (R212). -/
def execVshaddBf16 (o : SlotOp) (s : State) : Host.Outcome State Fault Refusal :=
  .next (vecFused o 16 bf16.add s)

/-- VRCP.F32 (R213). -/
def execVrcpF32 (o : SlotOp) (s : State) : Host.Outcome State Fault Refusal :=
  .next (vecFun o 8 rcpF32 s)

/-- VRSQ.F32 (R213). -/
def execVrsqF32 (o : SlotOp) (s : State) : Host.Outcome State Fault Refusal :=
  .next (vecFun o 8 rsqF32 s)

/-- VEXP2.F32 (R213). -/
def execVexp2F32 (o : SlotOp) (s : State) : Host.Outcome State Fault Refusal :=
  .next (vecFun o 8 exp2F32 s)

/-- VLOG2.F32 (R213). -/
def execVlog2F32 (o : SlotOp) (s : State) : Host.Outcome State Fault Refusal :=
  .next (vecFun o 8 log2F32 s)

/-- VDIV.F32 (R213). -/
def execVdivF32 (o : SlotOp) (s : State) : Host.Outcome State Fault Refusal :=
  .next (vecFloat o 14 f32 divF32 s)

/-- VSQRT.F32 (R213). -/
def execVsqrtF32 (o : SlotOp) (s : State) : Host.Outcome State Fault Refusal :=
  .next (vecFun o 14 sqrtF32 s)

/-- VXC: a copy into a register of another cluster, rotated by that cluster's base; the latches stay (R214). -/
def execVxc (o : SlotOp) (s : State) : Host.Outcome State Fault Refusal :=
  let x := s.cur
  let c := clusterOf o.pos
  let t := o.mod % 8
  let m := guardBits x o.g
  if m = 0 then .next s
  else
    let lat := 3 + ringDistance (2 * c + 1) (2 * t + 1)
    .next ((s.clusterChecks o [o.a]).addFlight
      { s.plainFlight o.pos lat (.vreg t (physReg x t o.dst.index)) ((clusterVal x c 32 o.a).getD 0) with mask := m })

/-- VTAP (R163). -/
def execVtap (o : SlotOp) (s : State) : Host.Outcome State Fault Refusal :=
  .next (vecOp o [o.a] 1 32 (fun a _ _ => .quiet a) s)

/-- VPUT: the guarded bytes of a, zero elsewhere, onto a lane at the cluster's station at t+1 (R164). -/
def execVput (o : SlotOp) (s : State) : Host.Outcome State Fault Refusal :=
  let x := s.cur
  let c := clusterOf o.pos
  let m := guardBits x o.g
  if m = 0 then .next s
  else
    let aw := o.mod / 16 % 2 == 1
    let d := mergeLine m ((clusterVal x c 32 o.a).getD 0) 0
    .next (((s.clusterChecks o [o.a]).claimLane o.pos aw (o.mod % 16) (2 * c + 1) 1).addFlight
      (s.plainFlight o.pos 1 (.drive aw (o.mod % 16) (2 * c + 1)) d))

end Sys2Proof.Machine
end

