-- ==== Sys2Proof/Machine/Sequencer.lean ====
section
/-! DEFINITION. The sequencer: fetch, elision, sticky words and steps, the issue of a bundle and its completion, the ctl
instructions (R29 to R48, R173 to R190), the landing of results (R40) and the correctable-error freeze (R168). -/

namespace Sys2Proof.Machine

/-- A field of a word holds a register index that the row uses, so that it steps: a field that the row requires to be zero
admits no other index (R43, R54). In an en word the index that a holds says nothing of b, so a stands at s0 (R56). -/
def usesField (pos w lo n : Nat) : Bool :=
  (decodeSlot pos (putFld (if pos = 39 then putFld w 34 12 0 else w) lo n 1)).isSome

/-- Step a 12-bit descriptor of kind 00 (R43). -/
def stepReg (pos w lo : Nat) (k : Int) : Nat :=
  if fld w (lo + 10) 2 = 0 && usesField pos w lo 12 then
    let n := if 3 ≤ pos && pos ≤ 26 then 10 else 6
    putFld w lo n (ofInt n ((fld w lo n : Nat) + k))
  else w

/-- Step a tile or slot index of the mx class (R56). -/
def stepTile (w lo : Nat) (k : Int) : Nat :=
  if fld w (lo + 9) 3 = 6 then putFld w lo 4 (ofInt 4 ((fld w lo 4 : Nat) + k)) else w

/-- Step a held word before its re-issue (R43, R56, R162). -/
def stepWord (pos w : Nat) (k : Steps) : Nat :=
  if w = 0 ∨ pos = 0 ∨ pos = 38 then w
  else if pos ≤ 26 then stepReg pos (stepReg pos (stepReg pos w 34 k.sd) 22 k.sa) 10 k.sb
  else if isRingPos pos then
    let w1 := if usesField pos w 41 4 then putFld w 41 4 (ofInt 4 ((fld w 41 4 : Nat) + k.sd)) else w
    stepReg pos (putFld w1 17 12 (ofInt 12 ((fld w 17 12 : Nat) + k.sa))) 29 k.sa
  else if pos = 35 then stepTile (stepTile (stepTile w 34 k.sd) 22 k.sa) 10 k.sb
  else if isApPos pos then
    let w1 := putFld (putFld w 17 4 (ofInt 4 ((fld w 17 4 : Nat) + k.sd))) 15 2 (ofInt 2 ((fld w 15 2 : Nat) + k.sb))
    if fld w 32 2 = 2 then putFld w1 22 6 (ofInt 6 ((fld w 22 6 : Nat) + k.sa)) else w1
  else stepReg pos (stepReg pos w 34 k.sa) 22 k.sb

/-- Step a held word n times. -/
def stepTimes (pos : Nat) (k : Steps) : Nat → Nat → Nat
  | 0, w => w
  | n + 1, w => stepTimes pos k n (stepWord pos w k)

def stepsOf (x : Brick) (pos : Nat) : Steps := tget ⟨0, 0, 0⟩ x.seq.steps pos

/-- The held word of a slot; NOP is 0 (R42). -/
def heldWord (x : Brick) (pos : Nat) : Nat := (tget (0 : Word) x.seq.held pos).toNat

def setHeld (x : Brick) (pos w : Nat) : Brick := { x with seq := { x.seq with held := tput 0 x.seq.held pos (word64 w) } }

/-- A bundle read from the stream: its header word, its offset, the offset after it, the words it mentions (R29). -/
structure Bundle where
  hdr : Nat
  pc : Nat
  fin : Nat
  words : List (Nat × Nat)
  deriving DecidableEq, Repr

def Bundle.gap (u : Bundle) : Nat := fld u.hdr 52 4
def Bundle.yields (u : Bundle) : Bool := fld u.hdr 51 1 == 1
def Bundle.settles (u : Bundle) : Bool := fld u.hdr 50 1 == 1
def Bundle.elide (u : Bundle) : Bool := fld u.hdr 49 1 == 1
def Bundle.rep (u : Bundle) : Nat := fld u.hdr 40 8
def Bundle.word (u : Bundle) (pos : Nat) : Option Nat := (u.words.find? fun p => p.1 == pos).map (·.2)

/-- A padding bundle (R44). -/
def Bundle.padding (u : Bundle) : Bool := fld u.hdr 0 40 == 0 && u.rep == 0 && u.gap == 0 && u.elide

/-- The offset after the bundle at a byte offset; outside the stream, the next word. -/
def nextBundle (x : Brick) (pc : Nat) : Nat := pc + bundleBytes (fld (x.stream.getD (pc / 8) 0).toNat 0 40)

/-- A bundle of the stream starts k words on; skip words of the bundle before it are left (R29, R180). -/
def startsBundle : List Word → Nat → Nat → Bool
  | [], _, _ => false
  | _ :: ws, skip + 1, k => k != 0 && startsBundle ws skip (k - 1)
  | w :: ws, 0, k => k == 0 || startsBundle ws (maskPositions (fld w.toNat 0 40)).length (k - 1)

/-- The bundle at a byte offset (R29, R30). -/
def bundleAt (x : Brick) (pc : Nat) : Bundle :=
  let h := (x.stream.getD (pc / 8) 0).toNat
  { hdr := h, pc := pc, fin := nextBundle x pc,
    words := (maskPositions (fld h 0 40)).zip ((x.stream.drop (pc / 8 + 1)).map BitVec.toNat) }

/-- The fetch checks: the bundle starts and ends inside the stream, and its extent covers no active END that it does not
start at (R29, R178, R180). -/
def fetchOk (x : Brick) (u : Bundle) : Bool :=
  u.pc % 8 == 0 && startsBundle x.stream 0 (u.pc / 8) && u.fin ≤ 8 * x.stream.length &&
  (List.range x.seq.depth).all fun l => let e := (loopLevel x l).fin; !(u.pc < e && e < u.fin)

/-- The back-edge rule of a bundle that completes at an offset (R177, R130); d levels are left to look at. An MTSR to VBCFG that
performs on the cycle prevails over the advance of BASE (R199). -/
def backEdge (pc next : Nat) : Nat → Brick → Brick
  | 0, x => { x with seq := { x.seq with pc := next } }
  | d + 1, x =>
    let l := loopLevel x d
    if l.fin ≠ pc then { x with seq := { x.seq with pc := next } }
    else if l.rem ≤ 1 then backEdge pc next d { x with seq := { x.seq with depth := d } }
    else
      let v := (sysGet x 0x045).toNat
      let y := if fld v 5 3 = d && !(x.mtsr.any fun w => w.1 == 0x045) then sysSet x 0x045 (word64 (putFld v 8 5 ((fld v 8 5 + 1) % (fld v 0 5 + 1)))) else x
      { y with
        seq := { y.seq with
          loops := tins y.seq.loops d { l with rem := l.rem - 1, idx := ofInt 64 ((l.idx : Int) + l.step) }
          pc := l.start } }

/-- A bundle completes at an offset: back-edge or the next bundle (R177). -/
def completeAt (x : Brick) (pc : Nat) : Brick := backEdge pc (nextBundle x pc) x.seq.depth x

/-- The brick with the predicate results that land up to a plan count, for the guards of elision (R44). -/
def aheadOf (x : Brick) (clk : Nat) : Brick :=
  (List.range (clk + 1 - x.seq.clk)).foldl (fun y k =>
    (x.flights.filter fun f => f.due == x.seq.clk + k).foldl (fun y f =>
      match f.dest with
      | .ppred c i => landPpred y f c i
      | .qpred i => landQpred y f i
      | _ => y) y) x

/-- The words of slots 1 to 39 as a bundle would hold them at its first issue, where they are not NOP. -/
def liveWords (x : Brick) (u : Bundle) : List (Nat × Nat) :=
  (List.range 40).filterMap fun pos =>
    let w := (u.word pos).getD (heldWord x pos)
    if pos = 0 ∨ w = 0 then none else some (pos, w)

/-- Removal sets the held words and makes the steps of the issues that do not take place; the bundle completes (R44, R177). -/
def removeBundle (x : Brick) (u : Bundle) : Brick :=
  let y :=
    if u.padding then x
    else (List.range 40).foldl (fun y pos =>
      if pos = 0 then y
      else match u.word pos with
        | some w => setHeld y pos (stepTimes pos (stepsOf x pos) u.rep w)
        | none => setHeld y pos (stepTimes pos (stepsOf x pos) (u.rep + 1) (heldWord x pos))) x
  completeAt y u.pc

/-- The held words as issue k of a bundle uses them (R42, R43); on the last issue position 0 holds the ctl word (R33). -/
def issueWords (x : Brick) (u : Bundle) (k : Nat) : Brick :=
  let y := (List.range 40).foldl (fun y pos =>
    if pos = 0 then y
    else match u.word pos with
      | some w => setHeld y pos (if k = 0 then w else stepWord pos (heldWord x pos) (stepsOf x pos))
      | none => setHeld y pos (stepWord pos (heldWord x pos) (stepsOf x pos))) x
  if k = u.rep then setHeld y 0 ((u.word 0).getD 0) else y

/-- The accumulator bank that an operation names (R72). -/
def bankOf : Instr → Option Nat
  | .mma o | .mmat o | .mzero o => some (o.dst.index / 4)
  | .mdrain o => some (o.a.index / 4)
  | .aprd o | .apwr o | .apadd o => some (o.tile.index / 4)
  | _ => none

/-- The slots of one accumulator bank that another slot names too (R72). -/
def bankClash (x : Brick) : List Nat :=
  let named := [35, 36, 37].filterMap fun pos => ((decodeSlot pos (heldWord x pos)).bind bankOf).map fun k => (pos, k)
  (named.filter fun p => named.any fun q => q.1 != p.1 && q.2 == p.2).map (·.1)

/-- The ctl word of a bundle holds an operation of this kind. -/
def ctlIs (u : Bundle) (f : Instr → Bool) : Bool :=
  match (u.word 0).bind (decodeSlot 0) with
  | some i => f i
  | none => false

def isSettle : Instr → Bool
  | .settle _ => true
  | _ => false

def isYield : Instr → Bool
  | .yield _ => true
  | _ => false

/-- B, BR, CALL and LOOP (R178). -/
def isTransfer : Instr → Bool
  | .branch _ => true
  | .branchReg _ => true
  | .call _ => true
  | .loop _ => true
  | _ => false

/-- The slots that hold VHBSWAP, where two of them would issue on one cycle (R217). -/
def swapClash (x : Brick) : List Nat :=
  let named := (List.range 40).filter fun pos =>
    match decodeSlot pos (heldWord x pos) with
    | some (.vhbswap _) => true
    | _ => false
  if 2 ≤ named.length then named else []

/-- A bundle with a transfer stands at the top level's END (R178). -/
def endClash (x : Brick) (u : Bundle) : Bool :=
  ctlIs u isTransfer && x.seq.depth != 0 && (loopLevel x (x.seq.depth - 1)).fin == u.pc

/-- The header of a bundle, or its ctl word beside it, is illegal (R3, R30, R35 to R38, R48). -/
def headerFault (u : Bundle) : Bool :=
  let ctl := (u.word 0).getD 0
  (decodeHeader u.hdr).isNone || (u.settles != ctlIs u isSettle) || (u.yields != ctlIs u isYield) || (u.settles && u.yields) ||
    ((u.settles || u.yields) && (u.elide || u.rep != 0 || u.gap != 0)) || (ctl != 0 && (decodeSlot 0 ctl).isNone)

/-- The slots whose words decode to no operation (R3, R35 to R38). -/
def wordFaults (x : Brick) : List Nat :=
  (List.range 40).filter fun pos => pos != 0 && heldWord x pos != 0 && (decodeSlot pos (heldWord x pos)).isNone

/-- The slots of the decode faults of an issue, which no guard touches (R30, R35 to R38, R48, R52, R72). -/
def decodeFaults (x : Brick) (u : Bundle) : List Nat :=
  (if headerFault u then [0] else []) ++ wordFaults x ++ bankClash x

/-- The slots of the issue checks that no guard touches: of the yield bundle (R47), of a transfer at END (R178) and of two bank
changes (R217). They come after the decode faults (R380). -/
def issueFaults (x : Brick) (u : Bundle) : List Nat :=
  (if (u.yields && !x.seq.afterSettle) || endClash x u then [0] else []) ++ swapClash x

/-- The bundle is removed at fetch (R44). One that decode finds illegal is not: it is nullified at its issue, as R3 and R52 have
it (log entry 95). -/
def elided (x : Brick) (u : Bundle) : Bool :=
  (u.padding && !headerFault u) ||
  (u.elide && (u.word 0).getD 0 == 0 &&
    (let y := aheadOf x (x.seq.clk + u.gap)
    (liveWords x u).all fun p => !guardTrue y (decodeGuard (fld p.2 55 9))) &&
    !headerFault u && (wordFaults (issueWords x u 0)).isEmpty && (bankClash (issueWords x u 0)).isEmpty)

/-- The slots whose guard reads true and names a cluster predicate with an uncorrectable error (R40, R204; log entry 97). -/
def guardFaults (x : Brick) : List Nat :=
  (List.range 40).filter fun pos =>
    let g := decodeGuard (fld (heldWord x pos) 55 9)
    heldWord x pos != 0 && guardTrue x g && guardUe x g

/-- The issue of a bundle begins: the region opens, a settle bundle absorbs the lag, the words are made, the decode checks
are made, and each live slot is worked through; the ctl slot comes last. One that decode finds illegal waits for no AWAIT (R33, R40, R45,
R52, R131, R174; log entry 157). -/
def State.issueBundle (s : State) (b : Nat) (u : Bundle) : State :=
  let x := s.brick b
  let x1 := { x with
    seq := { x.seq with
      origin := if x.seq.opening then s.ct else x.seq.origin
      opening := false
      arrived := none
      pt := if u.settles then x.seq.pt + x.seq.lag else x.seq.pt
      lag := if u.settles then 0 else x.seq.lag } }
  let y := issueWords x1 u x.seq.issueNo
  let s1 := { s.setBrick b y with
    issue := { s.issue with
      active := true
      saved := some x
      last := x.seq.issueNo == u.rep } }
  match decodeFaults y u with
  | [] => ((issueFaults y u).foldl (fun s pos => s.foundAt 0x01 pos)
      ((guardFaults y).foldl (fun s pos => s.foundAt 0x0B pos) s1)).push ((((List.range 39).map (· + 1)) ++ [0]).filterMap (fun pos => if heldWord y pos = 0 then none else some (Todo.slot pos)) ++
      [.commit])
  | bad => (bad.foldl (fun s pos => s.foundAt 0x01 pos) s1).push [.commit]

def isEnd : Instr → Option CtlOp
  | .endTask o => some o
  | _ => none

/-- The last issue of a bundle with END stands to be made on a brick's plan cycle; bundles that are removed before it take no cycle
(R33, R44, R189). -/
def endStands : Nat → Brick → Bool
  | 0, _ => false
  | n + 1, x =>
    let u := bundleAt x x.seq.pc
    let ends := fetchOk x u && ctlIs u (fun i => match isEnd i with | some o => guardTrue x o.g | none => false)
    match x.seq.gapLeft with
    | some 0 => ends && x.seq.issueNo == u.rep
    | some (_ + 1) => false
    | none => if fetchOk x u && elided x u then endStands n (removeBundle x u) else ends && u.gap == 0 && u.rep == 0

/-- The task's END issues on this cycle: every brick has issued it or stands to (R189, R377; log entry 126). -/
def State.taskEnds (s : State) (t : Nat) : Bool :=
  (s.task t).mask.all fun b =>
    let x := s.brick b
    x.seq.ended || (!s.frozen b && x.trap.found.isEmpty && endStands 4096 (aheadOf x x.seq.clk))

/-- A forced pre-emption stops the brick before this bundle, whose first issue would come now if `first`. A yield bundle of a
task that is not bound issues on the take point itself (R374, R377). -/
def State.stopsAt (s : State) (b : Nat) (u : Bundle) (first : Bool) : Bool :=
  match (s.brick b).task with
  | none => false
  | some t =>
    let k := s.task t
    match k.preempt with
    | none => false
    | some at' =>
      let yields := !k.byRequest && !k.bound && u.yields && ctlIs u isYield
      at' ≤ s.ct && !(at' = s.ct && first && yields)

/-- The settle bundle of the open region is reached: its O and S are the region's. One that is itself the first bundle of its region
opens the region on the cycle it is reached (R45, R173, R184; log entry 96). -/
def reachSettle (ct w : Nat) (x : Brick) : Brick :=
  if x.seq.arrived.isSome then x
  else { x with
    seq := { x.seq with
      arrived := some ct
      opening := false
      origin := if x.seq.opening then ct else x.seq.origin
      offset := fld w 0 24
      slack := fld w 24 10 } }

/-- BUNDLE_ISSUE: the plan cycle of a brick's sequencer. A bundle is fetched, removed, or waits for its gap or its settle
cycle; else it issues (R29 to R33, R42 to R48, R184). A settle bundle that was reached by its cycle and that a freeze holds over it
issues on the first cycle on which the brick is not frozen (R45, R170; log entry 16). One that decode finds illegal is found so at its issue (log
entries 87, 123). -/
def execBundleIssue (b : Nat) (s : State) : Host.Outcome State Fault Refusal :=
  let x := s.brick b
  let s0 := { s with
    issue := { s.issue with
      brick := b, start := some (s.issue.start.getD x), saved := some x, pc := x.seq.pc, issue := x.seq.issueNo } }
  let idle (s : State) := s.push [.commit]
  if x.seq.ended then .next (idle s0)
  else
    let u := bundleAt x x.seq.pc
    match x.seq.gapLeft with
    | some 0 =>
      if x.seq.issueNo = 0 && s.stopsAt b u true then .next (s0.push [.event (.forcedPreemption b)])
      else .next (s0.issueBundle b u)
    | some (n + 1) =>
      if s.stopsAt b u false then .next (s0.push [.event (.forcedPreemption b)])
      else .next (idle (s0.onBrick b fun x => { x with seq := { x.seq with gapLeft := some n } }))
    | none =>
      if fetchOk x u && elided x u then .next ((s0.onBrick b fun x => removeBundle x u).push [.event (.bundleIssue b)])
      else if s.stopsAt b u (u.gap == 0) then .next (s0.push [.event (.forcedPreemption b)])
      else if !fetchOk x u then .next (idle (s0.foundAt 0x01 0))
      else if u.settles && ctlIs u isSettle && !u.yields && u.gap == 0 && u.rep == 0 then
        let y := reachSettle s.ct ((u.word 0).getD 0) x
        let due := y.seq.origin + y.seq.offset
        if s.ct < due then .next (idle (s0.setBrick b y))
        else if (y.seq.arrived.getD s.ct) ≤ due then .next ((s0.setBrick b y).issueBundle b u)
        else .next (idle (s0.foundAt 0x0C 0))
      else if u.gap = 0 then .next (s0.issueBundle b u)
      else .next (idle (s0.onBrick b fun x => { x with seq := { x.seq with gapLeft := some (u.gap - 1) } }))

/-- A Course cycle on which the brick is frozen: the trap freeze of a task that is not bound moves its origins, every other freeze
adds to the lag. A brick that its task's trap meets in a freeze of R168 or a DRIFT withhold joins the trap freeze at its next plan
cycle; once it has, an error found in it changes nothing of that (R174, R382). -/
def freezeCycle (ct : Nat) (bound : Bool) (x : Brick) : Brick :=
  let other := (x.frz.ceUntil ≠ 0 && ct ≤ x.frz.ceUntil && x.frz.ceFrom ≤ x.frz.since) || (x.frz.driftUntil ≠ 0 && ct ≤ x.frz.driftUntil)
  if (x.trap.trapped || (x.frz.withTask && !other)) && !bound then
    { x with seq := { x.seq with c0 := x.seq.c0 + 1, origin := x.seq.origin + 1 } }
  else { x with seq := { x.seq with lag := x.seq.lag + 1 } }

/-- A cycle on which a brick is frozen passes for it (R174, R382). -/
def State.passFrozen (s : State) (b : Nat) : State := s.onBrick b (freezeCycle s.ct (s.boundBrick b))

/-- A Course cycle of a freeze of R168 is counted, whether or not a task runs on the brick (R172). -/
def countFreeze (ct : Nat) (x : Brick) : Brick :=
  let v := (sysGet x 0x049).toNat
  if x.frz.ceUntil ≠ 0 && x.frz.ceFrom ≤ ct && ct ≤ x.frz.ceUntil then
    sysSet x 0x049 (word64 (v % 2 ^ 32 + satAdd32 (v / 2 ^ 32) 1 * 2 ^ 32))
  else x

/-- The brick as its cycle began is kept while another brick of its task may trap on the cycle and freeze it (R382). -/
def State.keepBefore (s : State) (b : Nat) : State :=
  match (s.brick b).task with
  | some t => if (s.task t).bound || (s.task t).mask.length ≤ 1 then s else { s with before := s.before ++ [(b, s.brick b)] }
  | none => s

/-- The brick's cycle begins: what leaves the lanes leaves, what is due lands, and the sequencer's cycle follows (R39, R40). One
that the trap of another brick of its task has frozen since the cycle began stands still (R382). -/
def State.startBrick (s : State) (b : Nat) : State :=
  if (s.brick b).frz.withTask then s.passFrozen b
  else
  let s := s.keepBefore b
  let x := s.brick b
  let y := pruneRing x
  let hodPop := y.hod.flights.any fun (f : HodFlight) => f.due == y.seq.clk && f.opc == 3
  let hodWork := !y.hod.drives.isEmpty || y.hod.flights.any fun (f : HodFlight) => f.due == y.seq.clk
  let land (ph n : Nat) : List Todo := List.replicate n (.event (.resultLanding b ph))
  { s.setBrick b y with issue := { IssueCtx.reset with brick := b, start := some x } }.push
    (land 0 (dueCount y 0) ++
      (if hodPop then [Todo.event (.hpopCommit b)] else if hodWork then [Todo.event (.hpushRecord b)] else []) ++
      land 3 (y.mx.flights.filter fun (f : MxFlight) => f.due ≤ y.seq.clk).length ++
      (if y.mx.flights.any (fun f => f.opc == 7) || y.hod.flights.any (fun f => f.opc == 2) then land 4 1 else []) ++
      land 1 (dueCount y 1) ++ [Todo.event (.bundleIssue b)])

/-- A plan cycle of the brick has passed (R174). -/
def passCycle (x : Brick) : Brick :=
  { x with
    seq := { x.seq with clk := x.seq.clk + 1, pt := x.seq.pt + 1 } }

/-- After an issue: the next issue of the bundle, or the bundle completes (R32, R176 to R180). -/
def afterIssue (c : IssueCtx) (x : Brick) : Brick :=
  let u := bundleAt x c.pc
  let y := setHeld x 0 0
  if !c.last then { y with seq := { y.seq with gapLeft := some 0, issueNo := c.issue + 1 } }
  else
    let z := { y with seq := { y.seq with gapLeft := none, issueNo := 0, afterSettle := u.settles } }
    match c.leave, c.jump with
    | some e, _ => completeAt z e
    | none, some t => { z with seq := { z.seq with pc := t } }
    | none, none => completeAt z c.pc

/-- A brick of which nothing of this cycle has happened, at the bundle that was to issue: the bundles before it that were removed
stay removed (R44, R379; log entry 124). -/
def atBundle (start saved : Brick) : Brick := { start with seq := saved.seq, sys := removedSys start saved }

/-- A wait freezes the brick for this Course cycle: nothing of it happened (R131, R281). -/
def waitBrick (joins : Bool) (x : Brick) : Brick :=
  { x with
    seq := { x.seq with lag := x.seq.lag + 1 }
    hod := { x.hod with joinWait := if joins then x.hod.joinWait + 1 else x.hod.joinWait } }

/-- The engines of a brick, or the channels and the links that carry out its commands, would find a late fault on this cycle, if its plan
cycle passed: in the order of the cycle's parts (R381). -/
def State.engineFault (s : State) (b : Nat) (passed : Brick) : Bool :=
  let alive := (s.bricks.filter fun q => q.2.running && !s.frozen q.1).map (·.1)
  let s0 := { (s.setBrick b passed) with ran := alive }.performWrites.settleReturns
  let run (s : State) (i : State → Host.Outcome State Fault Refusal) : State := match i s with
    | .next t => t
    | _ => s
  let entered := [execSenderReadyCheck b, execAtomicEntry b].foldl run (s0.failTakes b)
  let applied := ((s.channels.filter fun q => !q.2.atomics.isEmpty).map fun q => execAtomicApplication q.1).foldl run entered
  let normed := passed.held.foldl (fun s h => s.linkNorm b h) applied
  let done := [execUpdStart b, execCopyBeat b, execRowRead b, execCopyLineWrite b, execFlitDeparture b, execFlitRetry b].foldl run normed.yardTurn.1
  (passed.held.length ≠ 0 || s.channels.any fun q => !q.2.atomics.isEmpty) && passed.trap.found.length < (done.brick b).trap.found.length

/-- The other bricks of a task that is not bound freeze on the cycle on which one of them stops at its issue: what they did on it
has not happened. One that has stopped at its boundary on it stays stopped (R375, R382). -/
def State.undoTask (s : State) (b : Nat) : State :=
  match (s.brick b).task with
  | none => s
  | some t =>
    if (s.task t).bound then s
    else
      let own := s.before.filter fun q => q.1 != b && (s.task t).mask.contains q.1 && q.2.task == some t && !(s.brick q.1).trap.trapped
      let s1 := own.foldl (fun s q =>
        s.setBrick q.1 (freezeCycle s.ct false (joinFreeze s.ct q.2))) s
      { s1 with ran := s1.ran.filter fun c => !(own.any fun q => q.1 == c) }

/-- The issue of a brick's bundle completes. A bundle that waits freezes the brick; a faulting one is nullified whole and the
first of its faults stops the brick at this plan cycle, at the faulting bundle, unless a late fault of the same cycle is delivered
(R52, R131, R379 to R381; log entry 124); else the RC fields that were read clear and the program counter moves on. -/
def State.commitIssue (s : State) : State :=
  let c := s.issue
  let b := c.brick
  let x := s.brick b
  let saved := c.saved.getD x
  let start := match c.start with
    | some y => atBundle y saved
    | none => x
  let s0 := { s with issue := IssueCtx.reset }
  if c.wait then
    let s1 := s0.setBrick b (waitBrick c.joins start)
    if c.portReads then s1.readPorts b fun _ => true else s1
  else
    match pickFound c.found with
    | none =>
      let y := if c.active then afterIssue c x else x
      let s1 := { s0.setBrick b (passCycle y) with ran := s.ran ++ [b] }
      c.clears.foldl (fun s n => s.clearRead b start n) s1
    | some f =>
      if saved.trap.found.length = start.trap.found.length && !s0.engineFault b (passCycle saved) then
        let late := f.code == 0x0C || f.code == 0x10
        let stopped := freezeCycle s.ct (s.boundBrick b) { start with trap := { start.trap with trapped := true } }
        let s1 := s0.setBrick b { stopped with trap := start.trap }
        ((if f.code = 0x10 then s1 else s1.undoTask b).late b
          { code := f.code, slot := f.slot, late := late, replay := false, pc := c.pc, issue := c.issue, cycle := s.ct,
            tcode := 0, regs := f.regs, notice := f.code == 0x0C }).push [.event (.trapPoint b)]
      else { s0.setBrick b (passCycle saved) with ran := s.ran ++ [b] }

/-- A due effect performs (R40, R158, R161, R195, R211, R239, R242, R247, R385). -/
def State.landFlight (s : State) (b : Nat) (f : Flight) : State :=
  let s1 := s.onBrick b fun x => { x with flights := x.flights.erase f }
  match f.dest with
  | .vreg c r => (s1.onBrick b fun x => landVreg x f c r).landEvents b f
  | .ppred c i => (s1.onBrick b fun x => landPpred x f c i).landEvents b f
  | .sreg r => s1.onBrick b fun x => landSreg x f r
  | .qpred i => s1.onBrick b fun x => landQpred x f i
  | .sys n => s1.landSys b f n
  | .pattern bank p => s1.onBrick b fun x => landPattern x f bank p
  | .bankSwap => s1.onBrick b fun x => { x with vec := { x.vec with activeBank := 1 - x.vec.activeBank } }
  | .claim i => s1.onBrick b fun x => { x with mx := { x.mx with claim := insNat i x.mx.claim } }
  | .release i => s1.onBrick b fun x => landRelease x i
  | .drive aw lane st => s1.onBrick b fun x => fillLane x aw lane st f.due f.value
  | .readLine aw lane st block line fin => s1.landReadLine b f aw lane st block line fin
  | .readWord addr size zx r fin => s1.landReadWord b f addr size zx r fin
  | .readStore addr size fin => s1.landReadStore b f addr size fin
  | .ringLine blocks line => s1.onBrick b fun x => landRingLine x f blocks line
  | .ringStore addr size => s1.onBrick b fun x => landRingStore x f addr size
  | .tag g => s1.onBrick b fun x => setTag x g (f.value.setWidth 16)
  | .accSeg add tile row seg => s1.landAccSeg b f add tile row seg
  | .accZero tile => s1.onBrick b fun x => landAccZero x tile

/-- RESULT_LANDING: the next due effect of a phase of the cycle performs: 0 as the cycle begins, 1 a bundle-port read, 2 a write
after every read, 3 a matrix operation, 4 the further taps of MOML and HPUSH (R39, R40, R165, R240, R246, R273). -/
def execResultLanding (b ph : Nat) (s : State) : Host.Outcome State Fault Refusal :=
  if ph = 3 then .next (s.completeMatrix b)
  else if ph = 4 then .next ((s.momlStep b).hodTaps b)
  else match nextDue (s.brick b) ph with
    | some f => .next (s.landFlight b f)
    | none => .next s

/-- CORRECTABLE_ERROR: an error in one of the brick's SRAMs is corrected and counted, and the brick freezes for the 8 Course
cycles that follow (R168). -/
def execCorrectableError (b : Nat) (s : State) : Host.Outcome State Fault Refusal := .next (s.correctable b 1)

/-- FREEZE_END: the freeze of R168 has run out. -/
def execFreezeEnd (b : Nat) (s : State) : Host.Outcome State Fault Refusal :=
  .next (s.onBrick b fun x => if x.frz.ceUntil < s.ct then { x with frz := { x.frz with ceUntil := 0 } } else x)

/-- The bundle's ctl sends the program counter to an offset (R180). -/
def State.jumpTo (s : State) (t : Nat) : State := { s with issue := { s.issue with jump := some t } }

/-- A signed n-bit byte offset from the bundle; a target below the stream is one that starts no bundle. -/
def State.relative (s : State) (n off scale : Nat) : Nat :=
  let t := (s.issue.pc : Int) + scale * toSigned n off
  if t < 0 then 1 else t.toNat

/-- B (R180). -/
def execBranch (o : CtlOp) (s : State) : Host.Outcome State Fault Refusal :=
  .next (if guardTrue s.cur o.g then s.jumpTo (s.relative 34 o.imm 1) else s)

/-- BR: the offset is the value's 34 low bits; a value with another bit set is illegal (R180). -/
def execBranchReg (o : CtlOp) (s : State) : Host.Outcome State Fault Refusal :=
  let x := s.cur
  let v := (scalarVal x o.a).toNat
  let s1 := s.foundIf (v / 2 ^ 34 ≠ 0 || v % 8 ≠ 0) 0x01 0
  .next (if guardTrue x o.g then (s1.foundIf (scalarUe x o.a) 0x0B 0).jumpTo v else s1)

/-- CALL: the link is written at t+1 (R180). -/
def execCall (o : CtlOp) (s : State) : Host.Outcome State Fault Refusal :=
  let x := s.cur
  if guardTrue x o.g then
    let link := BitVec.ofNat 512 (nextBundle x s.issue.pc)
    .next ((s.addFlight (s.plainFlight 0 1 (.sreg (o.imm % 64)) link)).jumpTo (s.relative 28 (o.imm / 64) 8))
  else .next s

/-- LOOP (R176). -/
def execLoop (o : CtlOp) (s : State) : Host.Outcome State Fault Refusal :=
  let x := s.cur
  let c := (scalarVal x o.a).toNat
  let fin := s.issue.pc + 8 * fld o.imm 0 13
  let d := x.seq.depth
  let broken := d ≠ 0 && (loopLevel x (d - 1)).fin < fin
  let s1 := s.foundIf (d = 6 || c < fld o.imm 21 6 || 2 ^ fld o.imm 27 5 < c || broken) 0x01 0
  if guardTrue x o.g then
    let s2 := s1.foundIf (scalarUe x o.a) 0x0B 0
    if c = 0 then .next (s2.jumpTo (nextBundle x fin))
    else
      let start := nextBundle x s.issue.pc
      let l : Loop := { idx := 0, rem := c, step := toSigned 8 (fld o.imm 13 8), start := start, fin := fin }
      .next ((s2.onCur fun x => { x with seq := { x.seq with depth := d + 1, loops := tins x.seq.loops d l } }).jumpTo start)
  else .next s1

/-- LBRK: the sequencer acts as though the bundle at the END of the outermost level left had completed (R179). -/
def execLbrk (o : CtlOp) (s : State) : Host.Outcome State Fault Refusal :=
  let x := s.cur
  let d := x.seq.depth
  let n := o.imm
  let s1 := s.foundIf (d < n) 0x01 0
  if guardTrue x o.g then
    let s2 := s1.onCur fun x => { x with seq := { x.seq with depth := d - n } }
    .next { s2 with issue := { s2.issue with leave := some (loopLevel x (d - n)).fin } }
  else .next s1

/-- SETSTEP (R181). -/
def execSetstep (o : CtlOp) (s : State) : Host.Outcome State Fault Refusal :=
  if guardTrue s.cur o.g then
    let v : Steps := ⟨toSigned 8 (fld o.imm 6 8), toSigned 8 (fld o.imm 14 8), toSigned 8 (fld o.imm 22 8)⟩
    .next (s.onCur fun x => { x with seq := { x.seq with steps := tput ⟨0, 0, 0⟩ x.seq.steps (fld o.imm 0 6) v } })
  else .next s

/-- The clusters of a mask (R182). -/
def clustersOf (mask : Nat) : List Nat := (List.range 8).filter fun c => fld mask c 1 == 1

/-- ROT: the bases advance from t+1, and a q predicate is written into the new p8 (R182). -/
def execRot (o : CtlOp) (s : State) : Host.Outcome State Fault Refusal :=
  let x := s.cur
  if guardTrue x o.g then
    let n := fld o.imm 8 9
    let st := fld o.imm 17 1 = 1
    let v : Line := if scalarVal x o.a = 1 then (BitVec.allOnes 64).setWidth 512 else 0
    .next ((clustersOf (fld o.imm 0 8)).foldl (fun s c =>
      let prb := (tget 0 x.seq.prb c + 7) % 8
      let s1 := if st then s.addFlight (s.plainFlight 0 1 (.ppred c (8 + prb)) v) else s
      s1.onCur fun y =>
        { y with
          seq := { y.seq with
            rrb := tput 0 y.seq.rrb c ((tget 0 x.seq.rrb c + 512 - n) % 512)
            prb := if st then tput 0 y.seq.prb c prb else y.seq.prb } }) s)
  else .next s

/-- ROTSET (R183). -/
def execRotset (o : CtlOp) (s : State) : Host.Outcome State Fault Refusal :=
  if guardTrue s.cur o.g then
    let clear := fld o.imm 20 1 = 1
    .next ((clustersOf (fld o.imm 0 8)).foldl (fun s c =>
      let s1 :=
        if clear then (List.range 8).foldl (fun s j => s.addFlight (s.plainFlight 0 1 (.ppred c (8 + j)) 0)) s else s
      s1.onCur fun y =>
        { y with
          seq := { y.seq with
            rrb := tput 0 y.seq.rrb c (fld o.imm 8 9)
            prb := tput 0 y.seq.prb c (fld o.imm 17 3) } }) s)
  else .next s

/-- SETTLE: at the issue of its bundle a new region starts (R45, R184); the lag was absorbed as the bundle issued (R174). -/
def execSettle (_o : CtlOp) (s : State) : Host.Outcome State Fault Refusal :=
  .next (s.onCur fun x => { x with seq := { x.seq with origin := s.ct, opening := false } })

/-- YIELD: the task is offered with its stated run; a new region starts at the next issue (R185). -/
def execYield (o : CtlOp) (s : State) : Host.Outcome State Fault Refusal :=
  .next (s.onCur fun x => { x with seq := { x.seq with opening := true }, frz := { x.frz with yielded := some o.imm } })

/-- DRIFT: up to max Course cycles are withheld (R186). -/
def execDrift (o : CtlOp) (s : State) : Host.Outcome State Fault Refusal :=
  let k := min o.imm (s.tb.phi / 16).toNat
  if guardTrue s.cur o.g && k ≠ 0 then .next (s.onCur fun x => { x with frz := { x.frz with driftUntil := s.ct + k } })
  else .next s

/-- TRAP: fault 0x0F, delivered at the next plan cycle with the code (R187, R379). -/
def execTrap (o : CtlOp) (s : State) : Host.Outcome State Fault Refusal :=
  if guardTrue s.cur o.g then
    .next (s.late s.issue.brick
      { code := 0x0F, slot := 0, late := false, replay := false, pc := s.issue.pc, issue := s.issue.issue, cycle := s.ct,
        tcode := o.imm, regs := [], notice := false })
  else .next s

/-- PPOP: the oldest record leaves at t and is written at t+2; zeros from an empty queue (R188). -/
def execPpop (o : CtlOp) (s : State) : Host.Outcome State Fault Refusal :=
  let x := s.cur
  if guardTrue x o.g then
    let r := (x.pollen.headD 0).toNat
    let s1 := s.onCur fun x => { x with pollen := x.pollen.drop 1 }
    let s2 := s1.addFlight (s1.plainFlight 0 2 (.sreg o.a.index) (BitVec.ofNat 512 (r % 2 ^ 64)))
    .next (s2.addFlight (s2.plainFlight 0 2 (.sreg (o.a.index + 1)) (BitVec.ofNat 512 (r / 2 ^ 64))))
  else .next s

/-- END: nothing more issues (R189). -/
def execEndTask (o : CtlOp) (s : State) : Host.Outcome State Fault Refusal :=
  if guardTrue s.cur o.g then .next (s.onCur fun x => { x with seq := { x.seq with ended := true } }) else .next s

end Sys2Proof.Machine
end

