-- ==== Sys2Proof/Machine/Sha3.lean ====
section
/-! DEFINITION. SHA3-256 over bytes, which the Mason uses for firmware, measurements and image digests (R364, R401, R408). The
spec names the function; its steps are those of FIPS 202 (PRESUMED, log entry 40). -/

namespace Sys2Proof.Machine

/-- The lane rotations, lane x + 5y. -/
def keccakOffsets : List Nat :=
  [0, 1, 62, 28, 27, 36, 44, 6, 55, 20, 3, 10, 43, 25, 39, 41, 45, 15, 21, 8, 18, 2, 61, 56, 14]

/-- The next state of the round-constant generator. -/
def keccakLfsr (r : Nat) : Nat := if r / 128 % 2 = 1 then (2 * r % 256) ^^^ 0x71 else 2 * r % 256

/-- The bits of a round constant: bit 2^j - 1 for j from 0, from seven steps of the generator. -/
def keccakConst (r : Nat) : Nat × Nat :=
  (List.range 7).foldl (fun p j => (p.1 + (if p.2 % 2 = 1 then 2 ^ (2 ^ j - 1) else 0), keccakLfsr p.2)) (0, r)

def lane (a : List Word) (x y : Nat) : Word := a.getD (x % 5 + 5 * (y % 5)) 0

/-- One round: theta, rho, pi, chi, iota. -/
def keccakRound (a : List Word) (rc : Word) : List Word :=
  let col (x : Nat) : Word := lane a x 0 ^^^ lane a x 1 ^^^ lane a x 2 ^^^ lane a x 3 ^^^ lane a x 4
  let cols := (List.range 5).map col
  let d (x : Nat) : Word := cols.getD ((x + 4) % 5) 0 ^^^ (cols.getD ((x + 1) % 5) 0).rotateLeft 1
  let ds := (List.range 5).map d
  let t := (List.range 25).map fun i => a.getD i 0 ^^^ ds.getD (i % 5) 0
  let moved := (List.range 25).map fun i =>
    let x := i % 5
    let y := i / 5
    let src := (x + 3 * y) % 5 + 5 * x
    (t.getD src 0).rotateLeft (keccakOffsets.getD src 0)
  let chi := (List.range 25).map fun i =>
    let x := i % 5
    let y := i / 5
    lane moved x y ^^^ (~~~(lane moved (x + 1) y) &&& lane moved (x + 2) y)
  match chi with
  | [] => []
  | h :: t => (h ^^^ rc) :: t

/-- Keccak-f[1600]: n rounds, the round constants from the generator's state r. -/
def keccakRounds : Nat → Nat → List Word → List Word
  | 0, _, a => a
  | n + 1, r, a =>
    let c := keccakConst r
    keccakRounds n c.2 (keccakRound a (BitVec.ofNat 64 c.1))

/-- Absorb 17 words of 8 bytes. -/
def keccakAbsorb (a : List Word) (block : List Byte) : List Word :=
  keccakRounds 24 1 (a.zipIdx.map fun p =>
    if p.2 < 17 then p.1 ^^^ BitVec.ofNat 64 (bytesWord ((block.drop (8 * p.2)).take 8)) else p.1)

/-- Absorb n blocks. -/
def keccakBlocks : Nat → List Byte → List Word → List Word
  | 0, _, a => a
  | n + 1, bs, a => keccakBlocks n (bs.drop 136) (keccakAbsorb a (bs.take 136))

/-- The padding of a message: 0x06, zeros, the last byte's top bit. -/
def sha3Pad (bs : List Byte) : List Byte :=
  let n := 135 - bs.length % 136
  if n = 0 then bs ++ [0x86#8] else bs ++ [0x06#8] ++ List.replicate (n - 1) 0#8 ++ [0x80#8]

/-- SHA3-256 of a byte string, as 32 bytes. -/
def sha3 (bs : List Byte) : List Byte :=
  let p := sha3Pad bs
  ((keccakBlocks (p.length / 136) p (List.replicate 25 0)).take 4).flatMap fun w => wordBytes 8 w.toNat

/-- 32 bytes as a 256-bit number, byte 0 lowest. -/
def digestOf (bs : List Byte) : BitVec 256 := BitVec.ofNat 256 (bytesWord (sha3 bs))

end Sys2Proof.Machine
end

