-- ==== Sys2Proof/Machine/Sched.lean ====
section
/-! DEFINITION. Launch messages and images, queues, slices and offers, the start, parking and end of tasks, timed starts and
forced pre-emption (R363 to R377, R392 to R394). -/

namespace Sys2Proof.Machine

/-- A launch message read from its words (R364). -/
structure LaunchMsg where
  lid : Nat
  part : Nat
  queue : Nat
  rank : Nat
  asap : Bool
  timed : Bool
  start : Nat
  widths : Nat
  steptag : Nat
  run : Nat
  wbase : Word
  mask : List Nat
  args : List Word
  /-- the image's words, or the digest that names it -/
  image : Option (List Word)
  digest : BitVec 256
  deriving DecidableEq, Repr

/-- The bits of a list of words, the first lowest. -/
def wordsNat (ws : List Word) : Nat := ws.foldr (fun w acc => w.toNat + 2 ^ 64 * acc) 0

/-- The layout of R364; none where the message is malformed. -/
def parseLaunch (ws : List Word) : Option LaunchMsg :=
  let n (i : Nat) : Nat := (ws.getD i 0).toNat
  let narg := fld (n 3) 36 5
  let rest := ws.drop (18 + narg)
  let imgref := fld (n 1) 45 1 == 1
  let mask := (List.range 768).filter fun b => fld (n (6 + b / 64)) (b % 64) 1 == 1
  let head := fld (n 0) 0 32 == 0x0101 && fld (n 0) 32 32 == ws.length && 18 + narg ≤ ws.length && narg ≤ 16
  let zeros := fld (n 1) 46 18 == 0 && fld (n 3) 41 23 == 0 && fld (n 4) 56 8 == 0
  let asap := fld (n 1) 43 1 == 1
  let len := if imgref then rest.length == 4 else !rest.isEmpty && (rest.headD 0).toNat + 1 == rest.length
  if head && zeros && len && (!asap || n 2 == 0) && fld (n 4) 32 24 != 0 then
    some
      { lid := fld (n 1) 0 32, part := fld (n 1) 32 3, queue := fld (n 1) 35 5, rank := fld (n 1) 40 3, asap := asap,
        timed := fld (n 1) 44 1 == 1, start := n 2, widths := fld (n 3) 0 36, steptag := fld (n 4) 0 32, run := fld (n 4) 32 24,
        wbase := ws.getD 5 0, mask := mask, args := (ws.drop 18).take narg,
        image := if imgref then none else some (rest.drop 1), digest := BitVec.ofNat 256 (wordsNat (rest.take 4)) }
  else none

/-- The bytes of a list of words. -/
def wordsBytes (ws : List Word) : List Byte := ws.flatMap fun w => wordBytes 8 w.toNat

/-- The n-bit fields of a list of words, low first. -/
def wordsFields (n : Nat) (ws : List Word) : List Nat :=
  ws.flatMap fun w => (List.range (64 / n)).map fun i => fld w.toNat (n * i) n

/-- An image as its sections are read, and whether the bundle stream and a section of KIND 7 have been met (R365). -/
structure Parsed where
  img : Image
  stream : Bool
  decl : Bool
  deriving DecidableEq, Repr

/-- One section of an image (R365). -/
def parseSection (p : Parsed) (kind param : Nat) (body : List Word) : Option Parsed :=
  let w0 := (body.headD 0).toNat
  let img := p.img
  match kind with
  | 1 => if param = 0 ∧ !p.stream then some { p with img := { img with stream := body }, stream := true } else none
  | 2 =>
    let off := fld w0 0 32
    let cnt := fld w0 32 32
    if param < 8 ∧ body.length = 1 + (cnt + 7) / 8 ∧ off + cnt ≤ 262144 then
      some { p with img := { img with data := img.data ++ [(param, off, (wordsBytes (body.drop 1)).take cnt)] } }
    else none
  | 3 =>
    let cmds := wordsFields 32 (body.drop 1)
    if param < 768 ∧ !body.isEmpty ∧ body.length = 1 + (w0 + 1) / 2 ∧ (cmds.drop w0).all (· == 0) ∧
        !(img.timelines.any fun q => q.1 == param) then
      some { p with img := { img with timelines := img.timelines ++ [(param, (cmds.take w0).map fun c => BitVec.ofNat 32 c)] } }
    else none
  | 4 =>
    if param = 0 ∧ body.length = 8 then some { p with img := { img with formats := (wordsFields 8 body).map (· % 16) } } else none
  | 5 =>
    if param < 128 ∧ body.length = 8 then
      some { p with img := { img with patterns := img.patterns ++ [(param, mapElems 8 (· % 128) (bytesLine (wordsBytes body)))] } }
    else none
  | 6 =>
    if param < 64 ∧ body.length = 65 then
      some { p with img := { img with tables := img.tables ++ [(param, wordsFields 16 (body.drop 1), w0)] } }
    else none
  | 7 =>
    if param = 0 ∧ body.length = 2 ∧ !p.decl then
      let w := body.getD 1 0
      some { p with img := { img with count := w0, widths := if w = BitVec.allOnes 64 then none else some w.toNat }, decl := true }
    else none
  | _ => none

/-- The sections of an image, at most n (R365). -/
def parseSections : Nat → List Word → Parsed → Option Parsed
  | _, [], p => some p
  | 0, _ :: _, _ => none
  | n + 1, h :: ws, p =>
    let len := fld h.toNat 32 32
    if fld h.toNat 8 8 = 0 ∧ len ≤ ws.length then
      match parseSection p (fld h.toNat 0 8) (fld h.toNat 16 16) (ws.take len) with
      | some q => parseSections n (ws.drop len) q
      | none => none
    else none

/-- An image; none where it is malformed (R365). -/
def parseImage (ws : List Word) : Option Image :=
  match parseSections ws.length ws ⟨Task.none.image, false, false⟩ with
  | some p => if p.stream then some p.img else none
  | none => none

/-- A residency report (R367). -/
def reportWords (lid part queue status reason a start : Nat) : List Word :=
  [word64 (0x81 + 2 ^ 8 + 4 * 2 ^ 32),
    word64 (lid % 2 ^ 32 + part % 8 * 2 ^ 32 + queue % 32 * 2 ^ 35 + status * 2 ^ 40 + reason * 2 ^ 48), word64 a, word64 start]

/-- The control columns of a port (R406); before PHASE 4, where no table can be written and the Mason answers every launch, each column
(R400; log entry 120). -/
def State.control (s : State) (port : Nat) : Nat := if s.mason.phase < 4 then 0xFFFF else fld (tget 0 s.mason.admitReg port) 16 16

/-- A report of the Mason on a port: it leaves where its slot lies in control columns; elsewhere it is refused and TXDENY counts it
(R363, R406; log entry 120). -/
def State.report (s : State) (port : Nat) (ws : List Word) : State :=
  if slotAdmitted (s.control port) s.ct then s.emit (.report port ws) else s.refuseFlit port

def Part.queue (p : Part) (q : Nat) : Queue := tget Queue.reset p.queues q

def State.onQueue (s : State) (k q : Nat) (f : Queue → Queue) : State :=
  s.onPart k fun p => { p with queues := tins p.queues q (f (p.queue q)) }

/-- A task holds bricks: it runs, or it was chosen and will (R369, R371). -/
def Task.active (t : Task) : Bool := t.state == .placed || t.state == .running

/-- An accepted launch with a start cycle before its first issue (R369). -/
def Task.awaitsStart (t : Task) : Bool := !t.asap && (t.state == .startPending || (t.state == .placed && t.saved.isEmpty))

/-- The tasks that a queue counts (R369, R376). -/
def State.queueCount (s : State) (k q : Nat) : Nat :=
  ((s.part k).queue q).order.length + (s.tasks.filter fun t => t.2.part == k && t.2.queue == q && t.2.awaitsStart).length

/-- A task is resident, or was chosen and will be (R369, R371; log entry 39). -/
def Task.holds (t : Task) : Bool := t.active || t.resident

/-- A task's MASK names a brick, and the task is resident or the brick is still its partition's: a chosen task that has not run has no
say over a brick that has passed to another partition (R28; log entry 98). -/
def State.claims (s : State) (t : Task) (b : Nat) : Bool :=
  t.mask.contains b && (t.resident || (s.part t.part).bricks.contains b)

/-- The tasks resident on a brick, and those that are about to be (R369). -/
def State.residents (s : State) (b : Nat) : List Nat := (s.tasks.filter fun t => t.2.holds && s.claims t.2 b).map (·.1)

/-- The tasks that stay on a brick when a timed launch takes it: the resident ones, and a start launch that has been taken. One that an
offer chose and that has not run goes back to its queue (R369, R373; log entries 39, 81, 99). -/
def State.staying (s : State) (b : Nat) : List Nat :=
  (s.tasks.filter fun t => (t.2.resident || (t.2.active && t.2.awaitsStart)) && s.claims t.2 b).map (·.1)

/-- The bricks of a partition that no task holds (R371). -/
def State.idleBricks (s : State) (k : Nat) : List Nat :=
  (s.part k).bricks.filter fun b => !(s.tasks.any fun t => t.2.active && s.claims t.2 b)

/-- The take point of a start cycle (R373). -/
def takeLead : Nat := 16896

/-- The next frame boundary at or after a cycle (R81). -/
def frameAt (c : Nat) : Nat := (c + 4095) / 4096 * 4096

/-- An offer of bricks of a partition on this cycle (R371). -/
def State.offer (s : State) (k : Nat) (yielder : Option Nat) (bricks : List Nat) : State :=
  { s with offers := s.offers ++ [(k, yielder, bricks)] }

/-- The image of a message: inline, or held under its digest (R364, R365). -/
def State.imageOf (s : State) (m : LaunchMsg) : Option (List Word) :=
  match m.image with
  | some ws => some ws
  | none => ((s.part m.part).images.find? fun p => p.1 == m.digest).map (·.2)

/-- RANKTBL holds this package with V = 1 (R356, R358). -/
def State.inTable (s : State) : Bool :=
  let e := tget 0 s.ranktbl s.rank
  fld e 12 1 == 1 && fld e 0 12 == s.station

/-- The reason for refusing a launch, or 0 (R366, R400, R407; an empty MASK: log entry 125). -/
def State.launchReason (s : State) (m : LaunchMsg) : Nat :=
  let p := s.part m.part
  let q := p.queue m.queue
  let held := s.imageOf m
  let img := (held.bind parseImage).getD Task.none.image
  let start := if img.timelines.isEmpty then m.start else frameAt m.start
  let wsum := ((List.range 6).map fun i => fld m.widths (6 * i) 6).sum
  if m.image.isSome ∧ (held.bind parseImage).isNone then 1
  else if p.bricks = [] ∨ !(m.mask.all fun b => p.bricks.contains b) then 2
  else if img.count ≠ 0 ∧ m.mask.length ≠ img.count then 3
  else if 64 < wsum ∨ img.widths.any (· != m.widths) then 4
  else if img.timelines.any fun t => p.htLen < t.2.length then 5
  else if (m.asap && m.timed) ∨ (!m.asap && start < s.ct + 17920) then 6
  else if 16 ≤ s.queueCount m.part m.queue ∨ (s.queueCount m.part m.queue ≠ 0 ∧ q.base ≠ m.rank) then 7
  else if held.isNone then 8
  else if !s.inTable then 9
  else if s.mason.pwrL1 then 10
  else 0

/-- The Mason keeps the 64 images launched most recently (R365). -/
def keepImage (p : Part) (ws : List Word) : Part :=
  let d := digestOf (wordsBytes ws)
  { p with images := ((d, ws) :: p.images.filter fun x => x.1 != d).take 64 }

/-- An accepted launch: its task, its place in the queue, its report (R366 to R369). -/
def State.accept (s : State) (port : Nat) (m : LaunchMsg) (ws : List Word) (img : Image) : State :=
  let start := if m.asap then 0 else if img.timelines.isEmpty then m.start else frameAt m.start
  let t := s.nextTask
  let task : Task :=
    { Task.none with
      port := port, launchId := m.lid, part := m.part, queue := m.queue, rank := m.rank, asap := m.asap, timed := m.timed
      start := start, accepted := s.ct, widths := m.widths, args := m.args, steptag := m.steptag, run := m.run, wbase := m.wbase, mask := m.mask
      image := img, state := if m.asap then .queued else .startPending, lastRun := m.run }
  let empty := s.queueCount m.part m.queue = 0
  let s1 := { s with tasks := tins s.tasks t task, nextTask := t + 1 }
  let s2 := (s1.onPart m.part fun p => keepImage p ws).onQueue m.part m.queue fun q =>
    { q with base := if empty then m.rank else q.base, order := if m.asap then q.order ++ [t] else q.order }
  let s3 := s2.report port (reportWords m.lid m.part m.queue (if m.asap then 2 else 1) 0 s.ct start)
  if m.asap then s3.offer m.part none [] else s3

/-- A message is taken in a control column of its port alone (R363, R406; log entry 120). -/
def State.takesMessage (s : State) (port : Nat) : Bool := inColumns (s.control port) s.ct

/-- LAUNCH: the message is accepted or refused with one residency report (R363 to R367). Before PHASE 4 every launch is refused
with reason 9 (R400). -/
def execLaunch (port : Nat) (ws : List (BitVec 64)) (s : State) : Host.Outcome State Fault Refusal :=
  let w1 := (ws.getD 1 0).toNat
  let refuse (r : Nat) : State := s.report port (reportWords (fld w1 0 32) (fld w1 32 3) (fld w1 35 5) 3 r s.ct 0)
  .next (if !s.takesMessage port then s
    else if s.mason.phase < 4 then refuse 9
    else match parseLaunch ws with
      | none => refuse 1
      | some m =>
        let r := s.launchReason m
        match s.imageOf m, (s.imageOf m).bind parseImage with
        | some words, some img => if r = 0 then s.accept port m words img else refuse r
        | _, _ => refuse (if r = 0 then 1 else r))

/-- What a brick keeps when the task on it changes: the fault record, the counts of dropped faults and of corrected errors, the
freeze of R168 under way, and the port slots its commands claimed (R168, R172, R341, R389; log entry 42). -/
def Brick.keepHardware (old new : Brick) : Brick :=
  { sysSet (sysSet new 0x032 (sysGet old 0x032)) 0x049 (sysGet old 0x049) with
    portClaims := old.portClaims
    frz := { new.frz with ceFrom := old.frz.ceFrom, ceUntil := old.frz.ceUntil }
    trap := { new.trap with recLo := old.trap.recLo, recHi := old.trap.recHi, rescyc := old.trap.rescyc, refused := old.trap.refused } }

/-- A brick that its task has left: nothing of it is under way, and what lies in its memories and registers stays there until the next
task's first issue or resume (R292, R371, R396; log entry 42). -/
def Brick.vacant (old : Brick) : Brick :=
  let r := Brick.reset
  old.keepHardware
    { old with
      task := none
      running := false
      seq := r.seq
      held := []
      flights := []
      ring := { old.ring with lanes := [], ports := [] }
      mx := { old.mx with flights := [], windows := [], last := none, arrayFree := 0, momlFree := 0 }
      hod := { old.hod with
        flights := [], win := none, flush := none, staged := [], stagedBad := [], drives := [], coderFree := 0, openUntil := 0, joinWait := 0
        deadAt := 0 }
      var := { old.var with queue := [], back := [] }
      trap := r.trap
      frz := r.frz }

/-- A brick at the first issue of its task: the image's data, formats, patterns and tables, every other part at its reset
value (R173, R230, R365, R368, R396). -/
def State.freshBrick (s : State) (b t j : Nat) : Brick :=
  let k := s.task t
  let i := k.image
  let r := Brick.reset
  (s.brick b).keepHardware
    { r with
      task := some t
      running := true
      workid := k.wbase + BitVec.ofNat 64 j
      stream := i.stream
      formats := (i.formats.zipIdx).foldl (fun m p => tput 0 m p.2 p.1) []
      ring := { r.ring with mem := i.data.foldl (fun m d => writeBytes m (262144 * d.1 + d.2.1) d.2.2) [] }
      vec := { r.vec with patterns := i.patterns.foldl (fun m p => tput identityPattern m p.1 p.2) [] }
      hod := { r.hod with tables := i.tables.foldl (fun m p => tins m p.1 p.2) [] }
      seq := { r.seq with origin := s.ct, c0 := s.ct } }

/-- A parked brick comes back: C0 moves so that plan time goes on, and a new region opens (R174, R371, R392). One that has yielded
and waits for its siblings goes on waiting (R372). -/
def State.loadBrick (s : State) (b : Nat) (saved : Brick) : Brick :=
  (s.brick b).keepHardware
    { saved with
      running := true
      seq := { saved.seq with c0 := s.ct - saved.seq.pt - saved.seq.lag, origin := s.ct, opening := true, arrived := none }
      frz := { Freeze.reset with yielded := saved.frz.yielded } }

/-- A brick as its task's image holds it. Every brick has yielded: none waits at its yield. A pre-emption held pending is served by
the parking itself, records of the cycle have joined the queue, and slots not claimed are stored as zero (R237, R239, R372, R375, R392,
R395). -/
def Brick.parked (x0 : Brick) (all : Bool) : Brick :=
  let x := flushPollen x0
  { x with
    running := false
    frz := { x.frz with yielded := if all then none else x.frz.yielded }
    trap := { x.trap with pend := x.trap.pend.filter fun f => f.code != 0x10 }
    mx := x.mx.claimedOnly }

/-- The lowest save slot of a brick that no task there has taken (R392). -/
def State.freeSlot (s : State) (t b : Nat) : Nat :=
  ((List.range 4).find? fun i => !(s.tasks.any fun u => u.1 != t && u.2.resident && u.2.slots.contains (b, i))).getD 0

/-- The state of a task's bricks is saved, their images go into their save slots and the bricks fall idle; each brick takes its slot
when the task first parks there (R371, R392). -/
def State.saveTask (s : State) (t : Nat) : State :=
  let k := s.task t
  let own := k.mask.filter fun b => (s.brick b).task = some t
  let all := own.all fun b => (s.brick b).frz.yielded.isSome
  let saved := own.map fun b => (b, (s.brick b).parked all)
  let slots := if k.slots.isEmpty then own.map fun b => (b, s.freeSlot t b) else k.slots
  let s1 := (saved.foldl (fun s q => s.onBrick q.1 Brick.vacant) s).onTask t fun k =>
    { k with saved := saved, state := .parked, preempt := none, slots := slots }
  saved.foldl (fun s q => s.storeImage q.1 (((slots.find? fun p => p.1 == q.1).map (·.2)).getD 0) q.2) s1

/-- A task parks: at its queue's tail after a yield, at its head after a forced pre-emption (R371, R375, R391). -/
def State.parkTask (s : State) (t : Nat) (head : Bool) : State :=
  let k := s.task t
  (s.saveTask t).onQueue k.part k.queue fun q => { q with order := if head then t :: q.order else q.order ++ [t] }

/-- A chosen or timed task is placed on its bricks, for its first issue at a cycle (R371, R373). -/
def State.place (s : State) (t at' : Nat) : State := s.onTask t fun k => { k with state := .placed, firstIssue := at' }

/-- A task leaves the machine and its bricks return to the arbiter (R189, R371). -/
def State.endTask (s : State) (t : Nat) : State :=
  let k := s.task t
  let own := k.mask.filter fun b => (s.brick b).task = some t
  let s1 := own.foldl (fun s b => s.onBrick b Brick.vacant) s
  let s2 := s1.onTask t fun k => { k with state := .ended, preempt := none }
  (s2.onQueue k.part k.queue fun q => { q with order := q.order.filter (· != t) }).offer k.part none own

/-- The End action's effect: operations in flight and held commands perform no further effect, variable commands run on without
their ring writes, running timelines stop and their banks close (R391). -/
def State.discardTask (s : State) (t : Nat) : State :=
  let k := s.task t
  let saved := (k.mask.filter fun b => (s.brick b).task = some t).map fun b =>
    (b, { Brick.reset with task := some t, var := (s.brick b).var, ring := (s.brick b).ring, hod := (s.brick b).hod })
  let s1 := if k.image.timelines.isEmpty || k.tlStopped then s else s.stopTimelines t true
  (s1.endTask t).onTask t fun k => { k with saved := saved }

/-- TASK_END: the task's timelines have stopped and its variable queues are empty (R81, R189). -/
def execTaskEnd (t : Nat) (s : State) : Host.Outcome State Fault Refusal := .next (s.endTask t)

/-- A task still holds bricks that another takes at its start: a bound one ends as by a course slip, another parks as it stands
(R373, R375; log entry 43). -/
def State.evict (s : State) (t b : Nat) : State :=
  match (s.brick b).task with
  | some u =>
    let k := s.task u
    if u = t then s
    else if k.bound then
      let slipped := k.mask.any fun c => (s.brick c).trap.trapped && (s.brick c).trap.code == 0x0C
      (if slipped || k.steptag = 0 then s else s.sendNotice k.steptag s.rank).discardTask u
    else (s.parkTask u true).onTask u fun k => { k with parkOnly := true }
  | none => s

/-- The task's MASK lies within its partition (R27). -/
def State.within (s : State) (t : Nat) : Bool := (s.task t).mask.all fun b => (s.part (s.task t).part).bricks.contains b

/-- A timed launch is dropped, with its report (R367, R373). -/
def State.dropLaunch (s : State) (t reason : Nat) : State :=
  let k := s.task t
  (s.onTask t fun k => { k with state := .ended }).report k.port
    (reportWords k.launchId k.part k.queue 6 reason k.accepted 0)

/-- A chosen task that has not started goes back to its queue's head (R369, R371). -/
def State.unplace (s : State) (t : Nat) : State :=
  let k := s.task t
  (s.onTask t fun k => { k with state := if k.saved.isEmpty then .queued else .parked }).onQueue k.part k.queue fun q =>
    { q with order := t :: q.order }

/-- The timelines of a task start, from its partition's share, wherever that ends (R80, R81; log entry 148). -/
def State.startTimelines (s : State) (t : Nat) : State :=
  let k := s.task t
  let base := (s.part k.part).htBase
  k.image.timelines.foldl (fun s q =>
    s.onChannel q.1 fun c =>
      { c with
        timelines := (c.timelines.filter fun l => l.running) ++
          [{ task := t, cmds := q.2, pos := 0, pass := 0, idle := 0, running := true }]
        memory := (q.2.zipIdx).foldl (fun m p => tput 0 m (base + p.2) p.1) c.memory }) s

/-- The switch reads a block of HBM: corrected errors are counted and an uncorrectable block is queued, a lost one is made from the
surviving stacks (R77, R96, R109, R392). -/
def State.switchBlock (s : State) (a : Nat) : State :=
  let p := placeOf a
  let d := a / 512 % 23
  if s.stripe p.ch p.bank p.row = .dataLost && dataStack p.row p.ch d = s.bond.lstack then (s.windowRdx p).2
  else (s.windowBlock p.ch p.bank p.row p.col d).2

/-- The switch reads the blocks of the image in slot i of brick b, as far as HBM reaches (R77, R96, R392). -/
def State.readImage (s : State) (b i : Nat) : State :=
  let a := s.slotAddr b i
  let first := a / 512
  (List.range ((a + 64 * imageLines - 1) / 512 + 1 - first)).foldl (fun s k =>
    if hbmSize ≤ 512 * (first + k) then s else s.switchBlock (512 * (first + k))) s

/-- The images of a task's saved bricks are read (R371, R392). -/
def State.readImages (s : State) (t : Nat) : State :=
  (s.task t).saved.foldl (fun u q => match (s.task t).slotOf q.1 with
    | some i => u.readImage q.1 i
    | none => u) s

/-- A task's saved brick as it comes back from its image (R371, R392). -/
def Task.loaded (t : Task) (s : State) (b : Nat) (x : Brick) : Brick :=
  match t.slotOf b with
  | some i => x.loadLines (s.imageChanges b i x)
  | .none => x

/-- TASK_START: the first issue of a chosen task falls on this cycle, on every one of its bricks (R371, R373). A parked brick
that stopped at a trap resumes at its trap point, and a fault that came while it was parked is delivered. A task whose bricks have
left its partition meanwhile does not start (R27; log entry 98). -/
def execTaskStart (t : Nat) (s : State) : Host.Outcome State Fault Refusal :=
  let k := s.task t
  let before := s
  if k.state ≠ .placed then .next s
  else if !s.within t then .next (if k.awaitsStart then s.dropLaunch t 0 else s.unplace t)
  else
    let s1 := k.mask.foldl (fun s b => s.evict t b) (s.readImages t)
    let pre := k.parkOnly || k.saved.any fun q => q.2.trap.trapped && q.2.trap.code == 0x10
    let s2 := (k.mask.zipIdx).foldl (fun s p =>
      match k.saved.find? fun q => q.1 == p.1 with
      | some q => s.setBrick p.1 (s.loadBrick p.1 (k.loaded before q.1 q.2))
      | none => s.setBrick p.1 (s.freshBrick p.1 t p.2)) s1
    let first := k.saved.isEmpty
    let s3 := s2.onTask t fun k =>
      { k with
        state := .running, saved := [], pre := pre, parkOnly := false
        lastYield := if first then s.ct else k.lastYield
        lastRun := if first then k.run else k.lastRun }
    let s4 := if first then s3.startTimelines t else s3
    let s5 := k.mask.foldl (fun s b => if (s.brick b).trap.trapped || !(s.brick b).trap.pend.isEmpty then s.resumeTrap b else s) s4
    .next ((k.mask.filter fun b => (s5.brick b).trap.trapped && (s5.brick b).trap.code != 0x10).foldl State.freezeTask s5)

/-- Effective rank (R370). -/
def Queue.eff (q : Queue) : Nat := min 7 (q.base + q.miss / 8)

/-- A queue's head fits an offer (R371, R373). -/
def State.fits (s : State) (k : Nat) (avail : List Nat) (edge : Bool) (h : Nat) : Bool :=
  let t := s.task h
  let len := 4096 * (s.part k).slice
  let rem := (s.ct / len + 1) * len - s.ct
  t.mask.all (fun b => avail.contains b) && (t.run ≤ rem || edge) &&
  t.mask.all (fun b => ((s.residents b).filter (· != h)).length < 4) &&
  (s.tasks.all fun u => u.2.state != .startPending || !(t.mask.any fun b => s.claims u.2 b) ||
    s.ct + t.run + takeLead ≤ u.2.start) &&
  (t.image.timelines.isEmpty || s.tasks.all fun u => u.1 == h || u.2.part != k || !u.2.holds || u.2.image.timelines.isEmpty)

/-- The bricks of a task that yielded go on with the next bundle (R185, R372). -/
def State.keepTask (s : State) (t : Nat) : State :=
  let k := s.task t
  (k.mask.foldl (fun s b => s.onBrick b fun x => { x with frz := { x.frz with yielded := none } }) s).onTask t fun k =>
    { k with lastYield := s.ct }

/-- The arbiter: the highest effective rank whose head fits, the first queue after the rank's pointer, until none fits (R371).
The answer names the tasks chosen. -/
def arbitrate (k : Nat) (yielder : Option Nat) (edge : Bool) : Nat → List Nat → State → List Nat → List Nat × State
  | 0, _, s, chosen => (chosen, s)
  | n + 1, avail, s, chosen =>
    let p := s.part k
    let ready := (List.range 32).filter fun q =>
      match (p.queue q).order with
      | h :: _ => s.fits k avail edge h
      | [] => false
    let e := (ready.map fun q => (p.queue q).eff).foldl max 0
    let rrp := 31 - tget 0 p.rrp e
    match ((List.range 32).map fun d => (rrp + 1 + d) % 32).find? fun q => ready.contains q && (p.queue q).eff == e with
    | none => (chosen, s)
    | some q =>
      let h := (p.queue q).order.headD 0
      let s1 := (s.onQueue k q fun x => { x with order := x.order.drop 1, chosen := true }).onPart k fun p =>
        { p with rrp := tput 0 p.rrp e (31 - q) }
      let start := s.ct + 16640
      let s2 := if yielder = some h then s1.keepTask h
        else s1.place h (if (s.task h).image.timelines.isEmpty then start else frameAt start)
      arbitrate k yielder edge n (avail.filter fun b => !(s.task h).mask.contains b) s2 (chosen ++ [h])

/-- One offer (R371). A yielding task joins the tail of its queue; if it is not chosen it parks. -/
def State.makeOffer (s : State) (o : Nat × Option Nat × List Nat) : State :=
  let k := o.1
  let edge := (s.part k).lastEdge == some s.ct && o.2.1.isNone
  let s1 := match o.2.1 with
    | some t => s.onQueue k (s.task t).queue fun q => { q with order := q.order ++ [t] }
    | none => s
  let avail := s1.idleBricks k ++ (if o.2.1.isSome then o.2.2 else [])
  let fuel := ((s1.part k).queues.map fun q => q.2.order.length).sum
  let r := arbitrate k o.2.1 edge fuel avail s1 []
  match o.2.1 with
  | some t => if r.1.contains t then r.2 else r.2.saveTask t
  | none => r.2

/-- The lowest brick of an offer, by which the offers of one cycle are ordered (R377). -/
def State.offerKey (s : State) (o : Nat × Option Nat × List Nat) : Nat := (s.idleBricks o.1 ++ o.2.2).foldl min 768

/-- Insert an offer in the order of R377. -/
def insertOffer (key : Nat × Option Nat × List Nat → Nat) (o : Nat × Option Nat × List Nat) :
    List (Nat × Option Nat × List Nat) → List (Nat × Option Nat × List Nat)
  | [] => [o]
  | p :: ps => if key p ≤ key o then p :: insertOffer key o ps else o :: p :: ps

/-- The offers of this cycle (R371, R377). -/
def State.makeOffers (s : State) : State :=
  let os := s.offers.foldl (fun acc o => insertOffer s.offerKey o acc) []
  os.foldl State.makeOffer { s with offers := [] }

/-- All the bricks of a task have yielded: an overrun is counted, a bound task keeps its bricks, a task whose bricks a timed
start takes on this very cycle parks, another is offered (R371, R372, R374). -/
def State.yieldTask (s : State) (t : Nat) : State :=
  let k := s.task t
  let n := (k.mask.map fun b => (s.brick b).frz.yielded.getD 0).foldl max 0
  let s1 := if k.lastYield + k.lastRun < s.ct then
      s.onQueue k.part k.queue fun q => { q with overrun := satAdd32 q.overrun 1 }
    else s
  let s2 := s1.onTask t fun k => { k with run := n, lastYield := s.ct, lastRun := n }
  if k.bound then s2.keepTask t
  else if k.preempt.isSome then s2.parkTask t false
  else s2.offer k.part (some t) k.mask

/-- The tasks whose bricks have all yielded and wait for the offer (R372). -/
def State.yields (s : State) : List Nat :=
  (s.tasks.filter fun t => t.2.state == .running && t.2.mask.all fun b =>
    (s.brick b).task == some t.1 && (s.brick b).frz.yielded.isSome).map (·.1)

/-- SLICE_BOUNDARY: the miss counts, the slice length written before, and the offer of the idle bricks (R370, R371, R376). -/
def execSliceBoundary (k : Nat) (s : State) : Host.Outcome State Fault Refusal :=
  .next ((s.onPart k fun p =>
    { p with
      queues := p.queues.map fun q =>
        (q.1, { q.2 with
          miss := if q.2.order.isEmpty then q.2.miss else if q.2.chosen then 0 else min 63 (q.2.miss + 1)
          chosen := false })
      slice := p.sliceNew.getD p.slice
      sliceNew := none
      lastEdge := some s.ct }).offer k none [])

/-- A forced pre-emption of a running task is due from this cycle (R374); a brick that is trapped holds it as a pending fault
at a boundary (R395), and the timelines of a bound task with such a brick stop (R375). A chosen task that has not started goes back to its queue's
head; a taken start launch makes its first issue at its own start (R369, R373; log entry 99). -/
def State.preemptTask (s : State) (t : Nat) (byRequest : Bool) : State :=
  let k := s.task t
  if k.state = .placed then (if k.awaitsStart then s else s.unplace t)
  else
    let s0 := s.onTask t fun k => { k with preempt := some s.ct, byRequest := byRequest }
    let stands (x : Brick) : Bool := x.task == some t && x.trap.trapped && x.trap.code != 0x10 && x.seq.issueNo == 0 && !x.seq.ended
    let s1 := if s.timelinesRun t && k.mask.any fun b => stands (s.brick b) then s0.stopTimelines t true else s0
    k.mask.foldl (fun s b =>
      let x := s.brick b
      if stands x then
        (s.late b
          { code := if k.bound then 0x0C else 0x10, slot := 63, late := true, replay := false, pc := x.seq.pc,
            issue := x.seq.issueNo, cycle := s.ct, tcode := 0, regs := [], notice := k.bound, preempts := true }).takeTrap b
      else s) s1

/-- TAKE_POINT: a timed launch is dropped, or takes its bricks from the tasks that run on them (R373); one whose bricks have left its
partition is dropped too (R27; log entry 98). -/
def execTakePoint (t : Nat) (s : State) : Host.Outcome State Fault Refusal :=
  let k := s.task t
  if k.state ≠ .startPending then .next s
  else
    let held := s.tasks.filter fun u => u.1 != t && u.2.active && k.mask.any fun b => s.claims u.2 b
    let reason := if held.any fun u => u.2.state == .running && u.2.timed then 1 else if k.mask.any fun b => 4 ≤ (s.staying b).length then 2 else 0
    .next (if reason ≠ 0 then s.dropLaunch t reason
    else if !s.within t then s.dropLaunch t 0
    else (held.foldl (fun s u => s.preemptTask u.1 false) s).place t k.start)

/-- The running task of a partition that a request names (R374). -/
def State.requested (s : State) (ws : List Word) : Option Nat :=
  let w1 := (ws.getD 1 0).toNat
  let ok := ws.length = 2 ∧ (ws.getD 0 0).toNat = 0x0102 + 2 * 2 ^ 32
  if ok then
    (s.tasks.find? fun t => t.2.state == .running && t.2.launchId == fld w1 0 32 && t.2.part == fld w1 32 3).map (·.1)
  else none

/-- PREEMPTION_REQUEST: it acts at its acceptance cycle, from the start of that cycle (the bricks' bundles are stopped before
this report is made); an END that issued on it prevails (R374, R377). It is taken where a launch is. -/
def execPreemptionRequest (port : Nat) (ws : List (BitVec 64)) (s : State) : Host.Outcome State Fault Refusal :=
  let w1 := (ws.getD 1 0).toNat
  let report (s : State) (status : Nat) : State :=
    s.report port (reportWords (fld w1 0 32) (fld w1 32 3) (fld w1 35 5) status 0 s.ct 0)
  .next (if !s.takesMessage port then s else match s.requested ws with
    | none => report s 5
    | some t =>
      let k := s.task t
      if k.mask.all fun b => (s.brick b).seq.ended then report (s.onTask t fun k => { k with preempt := none }) 5
      else report (if k.preempt.isSome then s else s.preemptTask t true) 4)

/-- FORCED_PREEMPTION: the brick stops at this bundle boundary. A task that is not bound takes fault 0x10 and parks once all its
bricks have stopped; a bound one takes course slip, and its timelines stop (R374, R375). -/
def execForcedPreemption (b : Nat) (s : State) : Host.Outcome State Fault Refusal :=
  let s0 := { s with issue := { s.issue with brick := b, start := some (s.issue.start.getD (s.brick b)) } }
  match (s.brick b).task with
  | none => .next (s0.push [.commit])
  | some t =>
    let k := s.task t
    if k.bound then
      let s1 := if k.image.timelines.isEmpty || k.tlStopped then s0 else s0.stopTimelines t true
      .next ((s1.foundAt 0x0C 63).push [.commit])
    else .next ((s0.foundAt 0x10 63).push [.commit])

/-- A brick of a pre-empted task has stopped (R374). -/
def Brick.stopped (x : Brick) : Bool := x.seq.ended || (x.trap.trapped && x.trap.code == 0x10) || x.frz.yielded.isSome

/-- The pre-empted tasks that park: every brick has stopped, and not every one at END (R375). -/
def State.stoppedTasks (s : State) : List Nat :=
  (s.tasks.filter fun t => t.2.state == .running && t.2.preempt.isSome && !t.2.bound &&
    (t.2.mask.all fun b => (s.brick b).stopped) && t.2.mask.any fun b => !(s.brick b).seq.ended).map (·.1)

/-- A brick past its END has nothing left in flight and no fault to deliver (R189, R378). -/
def Brick.drained (x : Brick) : Bool :=
  x.seq.ended && x.trap.found.isEmpty && x.flights.isEmpty && x.held.isEmpty && x.mx.flights.isEmpty && x.hod.flights.isEmpty && x.hod.drives.isEmpty

/-- The task's END has issued on every brick: its timelines run on to the end of the run, or stop at once (R81). -/
def State.beginEnd (s : State) (t : Nat) : State :=
  let k := s.task t
  let m := (s.part k.part).owned
  let s1 := s.onTask t fun k => { k with ending := true }
  if k.image.timelines.isEmpty || k.tlStopped then s1
  else if inColumns m s.ct then
    let e := (runEnd m s.ct).getD (s.ct / 4096 * 4096 + 4095)
    let s2 := s1.onTask t fun k => { k with tlStopAt := some e }
    if e ≠ s.ct then s2 else ((if (runEnd m s.ct).isNone then s2.runEnds (· == t) else s2)).push [.event (.timelineStop t)]
  else s1.push [.event (.timelineStop t)]

/-- The tasks whose END has issued on every brick on this cycle, and those that end (R81, R189). -/
def State.endings (s : State) : List Nat :=
  (s.tasks.filter fun t => t.2.state == .running && !t.2.ending && t.2.mask.all fun b => (s.brick b).seq.ended).map (·.1)

def State.finished (s : State) : List Nat :=
  (s.tasks.filter fun t => t.2.state == .running && t.2.ending && (t.2.image.timelines.isEmpty || t.2.tlStopped) &&
    t.2.mask.all fun b => (s.brick b).drained && (s.brick b).var.queue.isEmpty && !(s.brick b).trap.trapped).map (·.1)

end Sys2Proof.Machine
end

