-- ==== Sys2Proof/Machine/CourseTime.lean ====
section
/-! DEFINITION. Course time: ticks and held ticks, Drerel markers, calibration, slip notices and losses (R334 to R340, R353 to
R355), and the trap and the Mason's actions on it (R379, R390, R391, R395). -/

namespace Sys2Proof.Machine

/-- The tick is held: Φ has reached a cycle, the tick before was none held, and every brick with a resident task is frozen by a
DRIFT on the cycle that ends; a parked task stands on its bricks too (R335, R369). -/
def State.holdsTick (s : State) : Bool :=
  16 ≤ s.tb.phi && !s.tb.lastHeld &&
  s.tasks.all fun t => !t.2.resident || t.2.mask.all fun b =>
    let x := s.brick b
    x.frz.driftUntil ≠ 0 && s.ct ≤ x.frz.driftUntil && !s.ran.contains b

/-- The package's registers that MFSR reads, as they stand: PHERR, RANKINFO, TBSTAT, BOOTSTAT, BONDMODE (R197). -/
def State.packageRegs (s : State) : Table Word :=
  [(0x004, word64 (ofInt 16 s.tb.phi)), (0x02C, s.rankInfo), (0x02D, s.tbStat), (0x033, s.bootStat), (0x042, s.bondMode)]

/-- The markers of the tree parent have been missing for two marker periods, within the phase tolerance (R337, R355; log entry
44). -/
def State.markersGone (s : State) : List Todo :=
  match s.tb.lastMarker, s.tb.parent with
  | some m, some r => if !s.isRoot && m + 8192 + s.tb.lm + 5 = s.ct then [.event (.markerLoss r)] else []
  | _, _ => []

/-- The phases of a Course cycle's work. -/
def cyclePhases : List Todo := (List.range 15).map fun n => .phase (n + 1)

/-- COURSE_CYCLE_TICK: a held tick lowers Φ by one cycle and changes nothing else; another advances CT and the work of the Course
cycle begins (R334, R335). Markers that stay away for a period end LOCK (R357; log entry 44). -/
def execCourseCycleTick (s : State) : Host.Outcome State Fault Refusal :=
  .next (if s.holdsTick then
    { s with tb := { s.tb with phi := s.tb.phi - 16, held := satAdd32 s.tb.held 1, lastHeld := true } }
  else
    let late := match s.tb.lastMarker with
      | some m => decide (m + 4096 + s.tb.lm + 4 < s.ct + 1)
      | none => true
    let s1 := { s with
      tb := { s.tb with ct := s.ct + 1, lastHeld := false, lock := s.tb.lock && !late }
      partsAt := s.parts
      regsAt := s.packageRegs
      overAt := s.tb.overClear
      normsAt := [] }
    { s1 with agenda := s1.agenda ++ s1.markersGone ++ cyclePhases })

/-- DREREL_MARKER_SEND: the root sends the marker of its reference cycle, the multiple of 4,096 that its Course time is near to
(R336, R337, R409). -/
def execDrerelMarkerSend (s : State) : Host.Outcome State Fault Refusal :=
  .next (if s.isRoot then s.emit (.marker ((s.ct + 2048) / 4096 * 4096)) else s)

/-- The brick has taken a course slip already: another one changes nothing (R353, log entry 46). -/
def Brick.slipped (x : Brick) : Bool :=
  (x.trap.trapped && x.trap.code == 0x0C) || x.trap.found.any fun (f : Late) => f.code == 0x0C

/-- A course slip of a task: every one of its bricks that holds it, and every saved one, takes the fault (R337, R354). -/
def State.slipTask (s : State) (t : Nat) (regs : List (Nat × Word)) (notice : Bool) : State :=
  let k := s.task t
  let s1 := (k.mask.filter fun b => (s.brick b).task = some t && !(s.brick b).slipped).foldl
    (fun s b => s.courseSlip b 63 regs notice) s
  let s2 := if notice && !k.saved.isEmpty && k.steptag ≠ 0 then s1.sendNotice k.steptag s.rank else s1
  s2.onTask t fun k =>
    { k with
      saved := k.saved.map fun q =>
        (q.1, addPending q.2
          [{ code := 0x0C, slot := 63, late := true, replay := false, pc := q.2.seq.pc, issue := q.2.seq.issueNo, cycle := s.ct,
             tcode := 0, regs := regs, notice := notice }]) }

/-- The resident tasks whose step tag a notice names (R354). -/
def State.tagged (s : State) (tag : Nat) : List Nat :=
  (s.tasks.filter fun t => t.2.resident && t.2.steptag != 0 && (t.2.steptag == tag || tag == 0xFFFFFFFF)).map (·.1)

/-- DREREL_MARKER: Φ is set, the marker goes on to the children, and a lead of four cycles or more is a course slip (R336, R337).
The arrival phase f is in sixteenths. -/
def execDrerelMarker (m f : Nat) (s : State) : Host.Outcome State Fault Refusal :=
  let phi : Int := 16 * ((s.ct : Int) - m - s.tb.lm) + f
  let s1 := { s with tb := { s.tb with phi := phi, lastMarker := some m, lock := true } }
  let s2 := if s.isRoot then s1 else s1.emit (.forward m)
  .next (if phi < 64 then s2
    else (s2.tagged 0xFFFFFFFF).foldl (fun s t => s.slipTask t [(0x02A, lnfWord s 10 0 0)] true)
      { s2 with tb := { s2.tb with wasOver := true, overClear := [] } })

/-- MARKER_LOSS: a neighbour's markers are missing for two periods (R355). -/
def execMarkerLoss (rank : Nat) (s : State) : Host.Outcome State Fault Refusal :=
  .next ({ s with tb := { s.tb with lock := false } }.sendNotice 0xFFFFFFFF rank)

/-- LINK_LOSS: the port to a neighbour has lost its link (R355). -/
def execLinkLoss (_port rank : Nat) (s : State) : Host.Outcome State Fault Refusal := .next (s.sendNotice 0xFFFFFFFF rank)

/-- A held command that a notice leaves: an atomic or row command that has entered its channel queue (R354). -/
def Held.entered (h : Held) : Bool := 0x50 ≤ h.opc && h.opc ≤ 0x5A && h.done

/-- The brick is trapped already: the course slip is delivered at once and the pending faults are dropped (R395). -/
def State.slipTrapped (s : State) (b : Nat) : State :=
  let x := s.brick b
  if x.trap.trapped && x.trap.found.any fun f => f.code == 0x0C then
    (s.setBrick b
      { x with
        trap := { x.trap with trapped := false, pend := [], found := x.trap.found.filter fun f => f.code == 0x0C } }).takeTrap b
  else s

/-- A notice at its arrival: the rank is fenced, the tasks of the step slip and their held commands end, its norms are cleared,
which an MFSR of the cycle does not yet see, and the notice goes on to the children (R354). -/
def State.noticeArrives (s : State) (tag rank : Nat) : State :=
  let old := tget 0 s.ranktbl rank
  let s1 := { s with ranktbl := tput 0 s.ranktbl rank (if fld old 13 1 = 1 then old else old + 2 ^ 13) }
  let s2 := (s1.tagged tag).foldl (fun s t =>
    let k := s.task t
    let own := k.mask.filter fun b => (s.brick b).task = some t
    let s1 := own.foldl (fun s b => s.onBrick b fun x => { x with held := x.held.filter Held.entered }) s
    let s2 := s1.onTask t fun k =>
      { k with saved := k.saved.map fun q => (q.1, { q.2 with held := q.2.held.filter Held.entered }) }
    own.foldl State.slipTrapped (s2.slipTask t [(0x02A, lnfWord s 9 0 rank)] false)) s1
  let stale (x : Brick) : Bool := let nt := fld (sysGet x 0x026).toNat 32 32; nt ≠ 0 && (nt = tag || tag = 0xFFFFFFFF)
  { s2 with
    normsAt := (s2.bricks.filter fun (q : Nat × Brick) => stale q.2 && (tfind s2.normsAt q.1).isNone).foldl (fun m (q : Nat × Brick) => tins m q.1 (sysGet q.2 0x027)) s2.normsAt
    bricks := s2.bricks.map fun (q : Nat × Brick) =>
      if stale q.2 then (q.1, sysSet q.2 0x027 (sysGet q.2 0x027 &&& ~~~(1 : Word))) else q }.emit
    (.relay false tag rank)

/-- SLIP_NOTICE: a notice on its way up passes a package that is not the root, which sends it on; at the root, and on its way down,
it arrives (R354). -/
def execSlipNotice (up : Bool) (n : Notice) (s : State) : Host.Outcome State Fault Refusal :=
  .next (if up && !s.isRoot then s.emit (.relay true n.tag n.rank) else s.noticeArrives n.tag n.rank)

/-- A PATHTBL entry as it is stored (R358). -/
def pathEntry (port lp : Nat) : Nat := if 36 ≤ port then 0 else port + lp % 1024 * 2 ^ 6

/-- A calibrated latency: the longest one measured, in sixteenths of a cycle, in whole cycles, and the pad (R340). -/
def calibrated (lat : Nat) : Nat := (lat + 15) / 16 + 5

/-- PATHTBL after the probes of paths: rank, port, longest latency in sixteenths (R340). -/
def probedPaths (old : Table Nat) (paths : List (Nat × Nat × Nat)) : Table Nat :=
  paths.foldl (fun t p => tput 0 t p.1 (pathEntry p.2.1 (calibrated p.2.2))) old

/-- PATH_CALIBRATION: the probed paths; the tree edge's latency, which with the parent's own Lm gives Lm; CT and the phase from the
first marker. The root's Lm is 0 (R336, R340, R354). -/
def execPathCalibration (paths : List (Nat × Nat × Nat)) (parent : TreeParent) (first : FirstMarker) (s : State) :
    Host.Outcome State Fault Refusal :=
  let lm := if s.isRoot then 0 else parent.above + calibrated parent.lat
  .next { s with
    pathtbl := probedPaths s.pathtbl paths
    tb := { s.tb with
      ct := first.m + lm, lm := lm, phi := first.f, lastMarker := some first.m, lock := true
      parent := if s.isRoot then none else some parent.rank } }

/-- A pre-emption that a trap point holds pending is a bound task's course slip from then on: its timelines stop and its notice goes
out (R354, R375, R395). -/
def State.slipHeld (s : State) (b : Nat) (held : List Late) : State :=
  match held, (s.brick b).task with
  | f :: _, some t =>
    if (s.task t).bound then
      let s1 := s.noticeOf t f
      if s.timelinesRun t then s1.stopTimelines t true else s1
    else s
  | _, _ => s

/-- TRAP_POINT: the brick stops; its first fault is delivered (R379 to R389). -/
def execTrapPoint (b : Nat) (s : State) : Host.Outcome State Fault Refusal :=
  let x := s.brick b
  let held := if x.trap.trapped || x.trap.found.isEmpty then [] else s.heldPreemption b x.trap.found
  .next ((s.takeTrap b).slipHeld b held)

/-- The action is refused and changes nothing but REFUSED, which stays set until a 1 is written to it (R390, R391, log entry 48). -/
def State.refuseAction (s : State) (b : Nat) : State := s.onBrick b fun x => { x with trap := { x.trap with refused := true } }

/-- A resume is refused for these codes (R391). -/
def endsTask (code : Nat) : Bool := code == 0x0C || code == 0x05 || code == 0x06 || code == 0x10

/-- BRKCTL_RESUME: the brick resumes 4 cycles on; a task that is not bound resumes together, once every trapped brick of it has
been asked to (R391). -/
def execBrkctlResume (b : Nat) (s : State) : Host.Outcome State Fault Refusal :=
  let x := s.brick b
  let k := s.task (x.task.getD s.nextTask)
  .next (if !x.trap.trapped || endsTask x.trap.code || (!k.image.timelines.isEmpty && k.tlStopped) then s.refuseAction b
    else
      let s1 := s.onBrick b fun x => { x with trap := { x.trap with asked := true } }
      let group := if k.bound then [b] else k.mask.filter fun c =>
        (s.brick c).task = x.task && (s.brick c).trap.trapped && (s.brick c).trap.code ≠ 0x10
      if group.all fun c => (s1.brick c).trap.asked then
        group.foldl (fun s c => s.onBrick c fun x => { x with trap := { x.trap with resumeAt := some (s.ct + 4) } }) s1
      else s1)

/-- BRKCTL_END: the task ends; written at the end of cycle w, it takes effect before anything of w + 1 (R391). -/
def execBrkctlEnd (b : Nat) (s : State) : Host.Outcome State Fault Refusal :=
  let x := s.brick b
  .next (match x.trap.trapped, x.task with
    | true, some t => s.discardTask t
    | _, _ => s.refuseAction b)

/-- BRKCTL_PARK: a task that is not bound parks at the head of its queue; its other bricks, frozen with the trapped one, stop where
they stand (R382, R391). -/
def execBrkctlPark (b : Nat) (s : State) : Host.Outcome State Fault Refusal :=
  let x := s.brick b
  .next (match x.trap.trapped, x.task with
    | true, some t =>
      if (s.task t).bound then s.refuseAction b
      else (s.parkTask t true).onTask t fun k => { k with parkOnly := true }
    | _, _ => s.refuseAction b)

/-- What the Mason reads at line n of a brick's state window: its state at the trap point with the fill-port writes since; nothing
while the brick is not trapped (R390). -/
def State.windowLine (s : State) (b n : Nat) : Option Line :=
  if (s.brick b).trap.trapped && decide (n < imageLines) then some (saveLine (s.brick b) n) else none

/-- STATE_WINDOW_WRITE: while the brick is trapped the Mason's write performs at once, after the cycle's fill-port writes, over
which it prevails (R390, R395). -/
def execStateWindowWrite (b : Nat) (e : WindowEdit) (s : State) : Host.Outcome State Fault Refusal :=
  .next (if (s.brick b).trap.trapped then s.onBrick b fun x => editBrick x e else s)

end Sys2Proof.Machine
end

