-- ==== Sys2Proof/Machine/Mason.lean ====
section
/-! DEFINITION. The Mason and the host ports: power-up, the semaphore, the registers that the Mason and the hosts write, the
power clamp, measurements and attestation (R11, R27, R78, R119, R137, R283, R393, R399 to R410). Agents: 0 and 1 the host
ports, 2 the Mason. -/

namespace Sys2Proof.Machine

/-- A power-up phase fails: PHASE 7 with its code, until the next reset (R400). -/
def State.failBoot (s : State) (code : Nat) : State := { s with mason := { s.mason with phase := 7, ready := false, fcode := code, boot := none } }

/-- M := SHA3-256(M ‖ value) (R408). -/
def State.extend (s : State) (i : Nat) (v : BitVec 256) : State :=
  let m := tget 0 s.mason.measure i
  { s with
    mason := { s.mason with
      measure := tput 0 s.mason.measure i (digestOf (wordBytes 32 m.toNat ++ wordBytes 32 v.toNat)) } }

/-- The banks of a stack that training has left out are lost and relaid (R112, R400). -/
def State.crackStack (s : State) (stack : Nat) : State :=
  (List.range 32).foldl (fun s ch =>
    s.onChannel (32 * stack + ch) fun c =>
      (List.range 80).foldl (fun (c : Channel) i => c.onBank i fun b => { b with cracked := true, relaid := true }) c)
    { s with bond := { s.bond with lstack := stack } }

/-- What a reset finds before power-up begins: every register at its reset value; the non-volatile bad-page list, the second
tier's contents, the package's station and the world outside stay (R94, R400; log entry 45). -/
def State.restarted (s : State) : State :=
  { State.reset with
    inputs := s.inputs
    out := s.out
    fresh := s.fresh
    badPages := s.badPages
    hbm := s.hbm
    tier2 := s.tier2
    station := s.station }

/-- The image is accepted: the digest of the key in its header, the signature of 2,420 bytes over header and payload, the header's
version (R401). The answer is the failure code, or 0. -/
def imageFails (img : Firmware) : Nat :=
  let key := Config.headerKey img.header
  if (digestOf key).toNat ≠ Config.fusedKeyHash ∨ img.signature.length ≠ 2420 ∨
      !Config.mlDsaVerify key (sha3 img.signed) img.signature then 2
  else if Config.headerVersion img.header < Config.rollbackCounter then 3
  else 0

/-- RESET: core 0 runs from the ROM, which measurement 0 takes in, and reads the image, phase 0 of power-up (R399, R400, R408). -/
def execReset (img : Firmware) (s : State) : Host.Outcome State Fault Refusal :=
  let s0 := s.restarted
  let s1 := s0.extend 0 (BitVec.ofNat 256 Config.romDigest)
  .next (if !img.readable then s1.failBoot 1
    else { s1 with mason := { s1.mason with phase := 1, boot := some img } })

/-- Phase 1: the image is verified and becomes the kernel (R400, R401). -/
def State.verifyImage (s : State) (img : Firmware) : State :=
  if imageFails img ≠ 0 then s.failBoot (imageFails img)
  else
    { s with mason := { s.mason with fwver := Config.headerVersion img.header, phase := 2 } }.extend 1 (digestOf img.signed)

/-- Phase 2: the PLL locks and the links and stacks are trained. A stack left out joins the lost set at memory initialisation, the
table's event (R112, R400; log entry 140). -/
def State.calibrate (s : State) (img : Firmware) : State :=
  if !img.pllLocked then s.failBoot 4
  else if 1 < img.untrained.length then s.failBoot 5
  else
    { s with mason := { s.mason with phase := 3, boot := none, untrained := img.untrained.head? } }

/-- A phase of power-up under way ends; each takes a Course cycle here (R400; log entry 100). -/
def State.powerUp (s : State) : State :=
  match s.mason.boot with
  | none => s
  | some img =>
    if s.mason.phase = 1 then s.verifyImage img
    else if s.mason.phase = 2 then s.calibrate img
    else s

/-- A listed bad row is mapped to a spare row, and its former physical row is marked bad (R94). -/
def State.mapBadPage (s : State) (e : Nat × Nat × Nat × Nat) : State :=
  let pch := 32 * e.1 + e.2.1
  let bank := e.2.2.1
  let row := e.2.2.2
  let c := s.channel pch
  let src := physRow c bank row
  match spareFrom (c.bank bank) (Config.spareRow e.1 e.2.1 bank row) with
  | none => s
  | some dst => s.onChannel pch fun c => c.onBank bank fun b => { b with rows := tput row b.rows row dst, bad := insNat src b.bad }

/-- RANKTBL entry r; the package is the rank whose entry is valid and names its station (R357, R358). -/
def State.writeRank (s : State) (r v : Nat) : State :=
  let t := tput 0 s.ranktbl r (v % 2 ^ 14)
  let own := t.find? fun e => fld e.2 12 1 == 1 && fld e.2 0 12 == s.station
  { s with ranktbl := t, rank := match own with | some e => e.1 | none => s.rank }

/-- The kernel writes RANKTBL and PATHTBL and then sets READY (R402). -/
def State.becomeReady (s : State) (ranks : List (Nat × Nat)) (paths : List (Nat × Nat × Nat)) : State :=
  let s1 := ranks.foldl (fun s r => s.writeRank r.1 r.2) s
  { s1 with pathtbl := probedPaths s1.pathtbl paths, mason := { s1.mason with phase := 4, ready := true } }

/-- MEMORY_INITIALISATION: bad pages are mapped, every block and its parity is zero, marks are cleared; the untrained stack's
banks are lost and relaid, every other is in place, whatever was lost before; the kernel writes RANKTBL and PATHTBL and sets READY
(R112, R402). -/
def execMemoryInitialisation (t : MemoryTables) (s : State) :
    Host.Outcome State Fault Refusal :=
  .next (if s.mason.phase ≠ 3 then s
    else if !t.listOk then s.failBoot 6
    else
      let s1 := s.badPages.foldl State.mapBadPage s
      let s2 : State := { s1 with
        hbm := []
        hbmUe := []
        hbmCe := []
        pendWrites := []
        bond := { s1.bond with second := [] }
        channels := s1.channels.map fun q =>
          (q.1, { q.2 with
            torn := []
            tornOvf := false
            parity := []
            banks := q.2.banks.map fun b => (b.1, { b.2 with cracked := false, relaid := false }) }) }
      State.becomeReady (match s.mason.untrained with | some l => s2.crackStack l | none => s2) t.ranks t.paths)

/-- HSEM as it reads (R404). -/
def Mason.hsem (m : Mason) : Nat := m.hsemHeld.toNat + m.hsemOwner % 4 * 2 + m.hsemTie % 4 * 8

/-- The winner of the reads of one cycle: the agent that TIE names, or the first reader after it (R404). -/
def Mason.hsemWinner (m : Mason) (agents : List Nat) : Nat :=
  (((List.range 3).map fun d => (m.hsemTie + d) % 3).find? fun a => agents.contains a).getD 0

/-- The answers to the three agents, 64 bits each. -/
def packReads (f : Nat → Nat) : BitVec 256 := BitVec.ofNat 256 (f 0 + f 1 * 2 ^ 64 + f 2 * 2 ^ 128)

/-- HSEM_READ: the reads of one cycle; a read of a free semaphore acquires it (R404). -/
def execHsemRead (agents : List Nat) (s : State) : Host.Outcome State Fault Refusal :=
  let m := s.mason
  let asks (a : Nat) : Bool := agents.contains a
  .next (if m.hsemHeld then { s with reads := packReads fun a => if asks a then m.hsem else 0 }
    else
      let w := m.hsemWinner agents
      let race := agents.any fun a => a != w
      let m1 := { m with hsemHeld := true, hsemOwner := w, hsemTie := if race then (w + 1) % 3 else m.hsemTie }
      { s with mason := m1, reads := packReads fun a => if asks a && a != w then m1.hsem else 0 })

/-- HSEM_WRITE: the owner's write of 0 to bit 0 releases it; any other write is ignored (R404). -/
def execHsemWrite (agent v : Nat) (s : State) : Host.Outcome State Fault Refusal :=
  .next (if s.mason.hsemOwner = agent ∧ v % 2 = 0 then { s with mason := { s.mason with hsemHeld := false } } else s)

/-- ADMLOCK_WRITE: the admission tables stay as they are until a reset; it takes effect after the writes of its cycle. Below PHASE 4
the host ports do not answer (R400, R406, R410). -/
def execAdmlockWrite (s : State) : Host.Outcome State Fault Refusal :=
  .next (if s.mason.phase < 4 then s else { s with mason := { s.mason with admlock := true } })

/-- A frame above 1.1 × LIMIT (R407). -/
def Mason.excess (m : Mason) : Bool := 11 * m.pwrLimit < 10 * m.pwrLast

/-- CLAMP_HALT: power, coolant or junction temperature halts the arithmetic clock, and the package is lost to its domain
(R355, R407). Degrees, litres a minute, degrees. -/
def execClampHalt (inlet flow junction : Nat) (s : State) : Host.Outcome State Fault Refusal :=
  .next (if 45 < inlet ∨ flow < 8 ∨ 105 < junction ∨ s.mason.pwrOver then
    { s with mason := { s.mason with pwrL2 := true } }.emit .removed
  else s)

/-- POWER_FRAME: the watts of a frame against the LIMIT that stands as the frame ends; level 1 sets after 8 frames above it and clears after 8 below (R407). -/
def execPowerFrame (watts : Nat) (s : State) : Host.Outcome State Fault Refusal :=
  let m := s.mason
  let against := if m.pwrL1 then watts < m.pwrLimit else m.pwrLimit < watts
  let run := if against then m.pwrRun + 1 else 0
  let m1 := { m with
    pwrLast := watts
    pwrRun := if run = 8 then 0 else run
    pwrL1 := if run = 8 then !m.pwrL1 else m.pwrL1 }
  let s1 := { s with mason := { m1 with pwrOver := m1.excess } }
  .next (if m1.excess then s1.push [.event (.clampHalt 20 10 0)] else s1)

/-- ATTGO: a report is being made (R408). -/
def execAttgo (s : State) : Host.Outcome State Fault Refusal := .next { s with mason := { s.mason with attesting := true } }

/-- The report under way is made: the nonce, the measurements and BOOTSTAT, signed with the identity key, stand in ATTREP (R408; log
entry 136). -/
def State.attest (s : State) : State :=
  let bytes := wordBytes 32 s.mason.nonce.toNat ++
    ((List.range 8).flatMap fun i => wordBytes 32 (tget 0 s.mason.measure i).toNat) ++ wordBytes 8 s.bootStat.toNat
  let sign := Config.mlDsaSign (sha3 bytes)
  if s.mason.attesting then { s with mason := { s.mason with attrep := bytes ++ sign, attesting := false } }.emit (.attest bytes sign) else s

/-- MEASUREMENT_EXTEND: the kernel extends one of measurements 2 to 7 (R408). -/
def execMeasurementExtend (i : Nat) (v : BitVec 256) (s : State) : Host.Outcome State Fault Refusal :=
  .next (if 2 ≤ i ∧ i ≤ 7 then s.extend i v else s)

/-- YDCECNT_READ (R136). -/
def execYdcecntRead (die : Nat) (s : State) : Host.Outcome State Fault Refusal :=
  .next { s with reads := BitVec.ofNat 256 (tget 0 s.ydcecnt die), ydcecnt := tput 0 s.ydcecnt die 0 }

/-- LNKRETRY_READ (R409); below PHASE 4 the register does not answer (R400). -/
def execLnkretryRead (port : Nat) (s : State) : Host.Outcome State Fault Refusal :=
  let m := s.mason
  .next (if m.phase < 4 then { s with reads := 0 } else { s with
    reads := BitVec.ofNat 256 (tget 0 m.retryCount port % 2 ^ 32 + tget 0 m.failCount port % 2 ^ 32 * 2 ^ 32)
    mason := { m with retryCount := tput 0 m.retryCount port 0, failCount := tput 0 m.failCount port 0 } })

/-- ADMIT_READ (R406); below PHASE 4 the host ports do not answer (R400). -/
def execAdmitRead (n : Nat) (s : State) : Host.Outcome State Fault Refusal :=
  let m := s.mason
  .next (if m.phase < 4 then { s with reads := 0 } else { s with
    reads := BitVec.ofNat 256 (tget 0 m.admitReg n % 2 ^ 32 + tget 0 m.txdeny n % 2 ^ 16 * 2 ^ 32)
    mason := { m with txdeny := tput 0 m.txdeny n 0 } })

/-- A partition has a resident task (R369). -/
def State.partBusy (s : State) (k : Nat) : Bool := s.tasks.any fun t => t.2.part == k && t.2.resident

/-- Two sets of frame columns have none in common. -/
def disjointCols (a b : Nat) : Bool := (List.range 16).all fun j => !(fld a j 1 == 1 && fld b j 1 == 1)

/-- The first set of frame columns lies within the second. -/
def withinCols (a b : Nat) : Bool := (List.range 16).all fun j => !(fld a j 1 == 1) || fld b j 1 == 1

/-- FCOL_WRITE: refused while a task is resident, where a column would have two owners, where the Hod or save columns would lie
outside, and where a switch could not complete (R27, R78, R283, R393). -/
def execFcolWrite (k v : Nat) (s : State) : Host.Outcome State Fault Refusal :=
  let p := s.part k
  let c := v % 2 ^ 16
  let good := !s.partBusy k && (s.parts.all fun q => q.1 == k || disjointCols q.2.fcol c) && withinCols p.hodcol c &&
    withinCols p.savcol c && Config.switchFits p.bricks c p.savcol s.savebase
  .next (if good then s.onPart k fun p => { p with fcol := c } else s)

/-- HODCOL_WRITE: refused outside FCOL or on a save column (R283, R393). -/
def execHodcolWrite (k v : Nat) (s : State) : Host.Outcome State Fault Refusal :=
  let p := s.part k
  let c := v % 2 ^ 16
  .next (if withinCols c p.fcol && disjointCols c p.savcol then s.onPart k fun p => { p with hodcol := c } else s)

/-- SAVCOL_WRITE: refused outside FCOL, on a Hod column, and where a switch could not complete (R393). -/
def execSavcolWrite (k v : Nat) (s : State) : Host.Outcome State Fault Refusal :=
  let p := s.part k
  let c := v % 2 ^ 16
  .next (if withinCols c p.fcol && disjointCols c p.hodcol && Config.switchFits p.bricks p.fcol c s.savebase then
    s.onPart k fun p => { p with savcol := c }
  else s)

/-- SAVEBASE_WRITE: refused where a switch of a partition could not complete (R392, R393). -/
def execSavebaseWrite (v : Nat) (s : State) : Host.Outcome State Fault Refusal :=
  .next (if s.parts.all fun q => Config.switchFits q.2.bricks q.2.fcol q.2.savcol v then { s with savebase := v } else s)

/-- A range entry's register as it is stored (R119). -/
def Range.store (e : Range) (r v : Nat) : Range :=
  let page := BitVec.ofNat 64 (v / 4096 * 4096)
  match r with
  | 0 => { e with base := page }
  | 1 => { e with limit := page ||| 0xFFF#64 }
  | 2 => { e with offset := page }
  | _ =>
    let t := fld v 1 3
    let w := if fld v 6 1 = 1 then 0 else fld v 5 1
    let pg := if t = 2 ∨ t = 3 ∨ t = 4 then fld v 7 1 else 0
    let valid := if 6 ≤ t then 0 else fld v 0 1
    { e with
      attr := BitVec.ofNat 64 (valid + (if 6 ≤ t then 0 else t) * 2 + fld v 4 1 * 2 ^ 4 + w * 2 ^ 5 + fld v 6 1 * 2 ^ 6 + pg * 2 ^ 7) }

/-- The HBM extent of an entry reaches the save area (R119, R392). -/
def Range.reachesSave (e : Range) (savebase : Nat) : Bool :=
  let lo := (e.base + e.offset).toNat
  let hi := lo + (e.limit.toNat - e.base.toNat)
  let top := savebase + 3473408 * 3072
  e.base.toNat ≤ e.limit.toNat &&
    ((decide (lo < top) && decide (savebase ≤ hi)) || (decide (2 ^ 64 ≤ hi) && decide (savebase ≤ hi - 2 ^ 64)))

/-- RANGE_ENTRY_WRITE: registers 0 to 3 of entry i; refused while the entry is valid and a task resident, and where the entry
would reach the save area (R119). -/
def execRangeEntryWrite (k i r v : Nat) (s : State) : Host.Outcome State Fault Refusal :=
  let old := tget Range.reset (s.part k).ranges i
  let e := old.store r v
  .next (if (old.valid && s.partBusy k) || (e.valid && e.target == 0 && e.reachesSave s.savebase) then s
    else s.onPart k fun p => { p with ranges := tput Range.reset p.ranges i e })

/-- The bits of a multicast window that are stored (R137). -/
def mcwinBits (v : Nat) : Nat :=
  fld v 0 24 + fld v 24 1 * 2 ^ 24 + fld v 25 3 * 2 ^ 25 + fld v 32 15 * 2 ^ 32 + fld v 48 15 * 2 ^ 48

/-- MCWIN_WRITE: refused while the window's owner has a resident task, and where the mask names a brick outside OWNER; the
owner is the one that the window had (R137; log entry 161). -/
def execMcwinWrite (die w v : Nat) (s : State) : Host.Outcome State Fault Refusal :=
  let key := 16 * die + w
  let owner := fld v 25 3
  let good := !s.partBusy (fld (tget (0 : Word) s.mcwin key).toNat 25 3) &&
    (List.range 24).all fun b => fld v b 1 == 0 || (s.part owner).bricks.contains (24 * die + b)
  .next (if good then { s with mcwin := tput 0 s.mcwin key (BitVec.ofNat 64 (mcwinBits v)) } else s)

/-- PARTITION_CHANGE: refused while one of the bricks holds a resident task, where a brick belongs to another partition, and where
a switch could not complete (R27, R393). -/
def execPartitionChange (k : Nat) (bricks : List Nat) (s : State) : Host.Outcome State Fault Refusal :=
  let p := s.part k
  let bs := (List.range 768).filter fun b => bricks.contains b
  let good := !s.partBusy k && (s.parts.all fun q => q.1 == k || !(q.2.bricks.any fun b => bs.contains b)) &&
    Config.switchFits bs p.fcol p.savcol s.savebase
  .next (if good then s.onPart k fun p => { p with bricks := bs } else s)

/-- QSTAT k.q (R376). -/
def State.qstat (s : State) (k q : Nat) : Nat :=
  let x := (s.part k).queue q
  s.queueCount k q % 32 + x.base % 8 * 2 ^ 5 + x.eff % 8 * 2 ^ 8 + x.miss % 64 * 2 ^ 11 + x.overrun % 2 ^ 32 * 2 ^ 32

/-- BRKCTL of a brick as it reads (R390). -/
def Brick.brkctl (x : Brick) : Nat := x.trap.trapped.toNat * 2 ^ 2 + x.trap.refused.toNat * 2 ^ 3 + x.trap.rescyc % 2 ^ 32 * 2 ^ 32

/-- A window that no host has written: bits [75:64] read 0xFFF (R405). -/
def dmaReset : Nat := 0xFFF * 2 ^ 64

/-- PWRLIM as it reads (R407). -/
def Mason.pwrlim (m : Mason) : Nat := m.pwrLimit % 2 ^ 13 + m.pwrL1.toNat * 2 ^ 13 + m.pwrL2.toNat * 2 ^ 14 + m.pwrLast % 2 ^ 13 * 2 ^ 32

/-- What a register with no behaviour of its own reads as (R95, R107, R115, R122, R358, R376, R390, R405 to R408). The halves of HDMAW
and ATTREP are the low bits first. -/
def State.masonRead (s : State) (r : MasonReg) : Nat :=
  match r with
  | .htalloc k => (s.part k).htBase + (s.part k).htLen * 2 ^ 16
  | .hctl => s.refown
  | .hrht => s.hrht
  | .bondmode => s.bondMode.toNat
  | .tornovf stack => ((List.range 32).map fun ch => (s.channel (32 * stack + ch)).tornOvf.toNat * 2 ^ ch).sum
  | .vptroot k => (s.part k).vptroot.toNat
  | .ranktbl r => tget 0 s.ranktbl r
  | .pathtbl r => tget 0 s.pathtbl r
  | .slice k => (s.part k).slice
  | .brkctl b => (s.brick b).brkctl
  | .hdmaw p i => tget dmaReset s.mason.hdmaw (8 * p + i)
  | .admitReg n => tget 0 s.mason.admitReg n + tget 0 s.mason.txdeny n * 2 ^ 32
  | .pwrlim => s.mason.pwrlim
  | .attnonce => s.mason.nonce.toNat
  | .qstat k q => s.qstat k q
  | .attrep => bytesWord s.mason.attrep
  | .core i => (s.mason.cores.contains i).toNat
  | .privateWord a => readNat s.mason.memory a 8

/-- A DMA window as it is stored: V, R, W, BASE, LIMIT with bits [75:64] ones (R405). -/
def dmaWindow (v : Nat) : Nat := fld v 0 3 + fld v 12 52 * 2 ^ 12 + 0xFFF * 2 ^ 64 + fld v 76 52 * 2 ^ 76

/-- An admission table as it is stored: control columns must not overlap the data columns (R406). -/
def admission (v : Nat) : Nat :=
  let data := fld v 0 16
  let ctrl := fld v 16 16
  data + (if disjointCols data ctrl then ctrl else 0) * 2 ^ 16

/-- The Mason's write to one of its registers: RW fields are stored, W1C bits cleared (R11). -/
def State.masonWrite (s : State) (r : MasonReg) (v : Nat) : State :=
  match r with
  | .htalloc k => s.onPart k fun p => { p with htBase := fld v 0 13, htLen := min 8192 (fld v 16 14) }
  | .hctl => { s with refown := fld v 0 3 }
  | .hrht => { s with hrht := fld v 0 16 }
  | .bondmode => { s with bond := { s.bond with rebuild := fld v 8 1 == 1 } }
  | .tornovf stack =>
    (List.range 32).foldl (fun s ch => if fld v ch 1 = 1 then s.onChannel (32 * stack + ch) fun c => { c with tornOvf := false } else s) s
  | .vptroot k => s.onPart k fun p => { p with vptroot := BitVec.ofNat 64 v }
  | .ranktbl r => s.writeRank r v
  | .pathtbl r => { s with pathtbl := tput 0 s.pathtbl r (pathEntry (fld v 0 6) (fld v 6 10)) }
  | .slice k => s.onPart k fun p => { p with sliceNew := some (max 1 (fld v 0 20)) }
  | .brkctl b =>
    let s1 := if fld v 3 1 = 1 then s.onBrick b fun x => { x with trap := { x.trap with refused := false } } else s
    match fld v 0 2 with
    | 1 => s1.push [.event (.brkctlResume b)]
    | 2 => s1.push [.event (.brkctlEnd b)]
    | 3 => s1.push [.event (.brkctlPark b)]
    | _ => s1
  | .core i => { s with mason := { s.mason with cores := insNat i s.mason.cores } }
  | .privateWord a => { s with mason := { s.mason with memory := writeNat s.mason.memory a 8 v } }
  | .hdmaw _ _ => s
  | .admitReg _ => s
  | .pwrlim => s
  | .attnonce => s
  | .qstat _ _ => s
  | .attrep => s

/-- A host's write (R403, R405 to R408); below PHASE 4 only the attestation registers answer (R400); ATTNONCE stays while a report is being
made (R408). -/
def State.hostWrite (s : State) (port : Nat) (r : MasonReg) (v : Nat) : State :=
  let m := s.mason
  let m1 := match r with
    | .hdmaw p i => if p = port ∧ 4 ≤ m.phase then { m with hdmaw := tput dmaReset m.hdmaw (8 * p + i) (dmaWindow v) } else m
    | .admitReg n => if m.admlock ∨ m.phase < 4 then m else { m with admitReg := tput 0 m.admitReg n (admission v) }
    | .pwrlim => if m.phase < 4 then m else { m with pwrLimit := min 4800 (fld v 0 13) }
    | .attnonce => if m.attesting then m else { m with nonce := BitVec.ofNat 256 v }
    | _ => m
  { s with mason := m1 }

/-- REGISTER_WRITE: a register with no behaviour of its own, written by an agent that may (R11, R403). -/
def execRegisterWrite (agent : Nat) (r : MasonReg) (v : Nat) (s : State) : Host.Outcome State Fault Refusal :=
  .next (if agent = 2 then s.masonWrite r v else s.hostWrite agent r v)

end Sys2Proof.Machine
end

