-- ==== Sys2Proof/Machine/VectorY.lean ====
section
/-! DEFINITION. The Y units: multiplication (R209). -/

namespace Sys2Proof.Machine

/-- A fused multiply-add over a, b and the destination (R209). -/
def vecFma (o : SlotOp) (lat : Nat) (fm : BinFmt) (minus : Bool) (s : State) : State :=
  vecOp o [o.a, o.b, o.dst] lat fm.width (fun a b d => .zip3 fm.width (fm.fma minus) a b d) s

/-- The products of a lane's elements of w bits, summed into the lane (R209). -/
def dotLane (w : Nat) (uns : Bool) (a b d : Nat) : Nat :=
  let terms := (List.range (32 / w)).map fun k =>
    intVal w (!uns) (a / 2 ^ (w * k)) * intVal w (!uns) (b / 2 ^ (w * k))
  ofInt 32 ((d : Int) + terms.sum)

/-- Bits [63:32] of a lane product (R209). -/
def mulhLane (uns : Bool) (a b : Nat) : Nat := ofInt 32 (intVal 32 (!uns) a * intVal 32 (!uns) b / 2 ^ 32)

/-- VMUL.F32 (R209). -/
def execVmulF32 (o : SlotOp) (s : State) : Host.Outcome State Fault Refusal :=
  .next (vecFloat o 4 f32 f32.mul s)

/-- VMUL.BF16 (R209). -/
def execVmulBf16 (o : SlotOp) (s : State) : Host.Outcome State Fault Refusal :=
  .next (vecFloat o 4 bf16 bf16.mul s)

/-- VFMA.F32 (R209). -/
def execVfmaF32 (o : SlotOp) (s : State) : Host.Outcome State Fault Refusal :=
  .next (vecFma o 4 f32 false s)

/-- VFMA.BF16 (R209). -/
def execVfmaBf16 (o : SlotOp) (s : State) : Host.Outcome State Fault Refusal :=
  .next (vecFma o 4 bf16 false s)

/-- VFMS.F32 (R209). -/
def execVfmsF32 (o : SlotOp) (s : State) : Host.Outcome State Fault Refusal :=
  .next (vecFma o 4 f32 true s)

/-- VFMA.F64, landing at t+6 (R209). -/
def execVfmaF64 (o : SlotOp) (s : State) : Host.Outcome State Fault Refusal :=
  .next (vecFma o 6 f64 false s)

/-- VMUL.F64 (R209). -/
def execVmulF64 (o : SlotOp) (s : State) : Host.Outcome State Fault Refusal :=
  .next (vecFloat o 6 f64 f64.mul s)

/-- VADD.F64 (R209). -/
def execVaddF64 (o : SlotOp) (s : State) : Host.Outcome State Fault Refusal :=
  .next (vecFloat o 6 f64 f64.add s)

/-- VMUL.I32 (R209). -/
def execVmulI32 (o : SlotOp) (s : State) : Host.Outcome State Fault Refusal :=
  .next (vecOp o [o.a, o.b] 4 32 (fun a b _ => .quiet (zipElems 32 (fun a b => a * b % 2 ^ 32) a b)) s)

/-- VMULH.I32 (R209). -/
def execVmulhI32 (o : SlotOp) (s : State) : Host.Outcome State Fault Refusal :=
  .next (vecOp o [o.a, o.b] 4 32 (fun a b _ => .quiet (zipElems 32 (mulhLane (isUns o)) a b)) s)

/-- VDOT.I8 (R209). -/
def execVdotI8 (o : SlotOp) (s : State) : Host.Outcome State Fault Refusal :=
  .next (vecOp o [o.a, o.b, o.dst] 4 8 (fun a b d =>
    .zip3 32 (fun a b d => (dotLane 8 (isUns o) a b d, .none)) a b d) s)

/-- VDOT.I16 (R209). -/
def execVdotI16 (o : SlotOp) (s : State) : Host.Outcome State Fault Refusal :=
  .next (vecOp o [o.a, o.b, o.dst] 4 16 (fun a b d =>
    .zip3 32 (fun a b d => (dotLane 16 (isUns o) a b d, .none)) a b d) s)

end Sys2Proof.Machine
end

