-- ==== Sys2Proof/Machine/Dispatch.lean ====
section
/-! DEFINITION. One arm for each constructor of Instr, each a direct call of its meaning. -/

namespace Sys2Proof.Machine

/-- What an operation does. -/
def exec (i : Instr) (s : State) : Host.Outcome State Fault Refusal :=
  match i with
  | .bundleIssue b => Sys2Proof.Machine.execBundleIssue b s
  | .resultLanding b ph => Sys2Proof.Machine.execResultLanding b ph s
  | .branch o => Sys2Proof.Machine.execBranch o s
  | .branchReg o => Sys2Proof.Machine.execBranchReg o s
  | .call o => Sys2Proof.Machine.execCall o s
  | .loop o => Sys2Proof.Machine.execLoop o s
  | .lbrk o => Sys2Proof.Machine.execLbrk o s
  | .setstep o => Sys2Proof.Machine.execSetstep o s
  | .rot o => Sys2Proof.Machine.execRot o s
  | .rotset o => Sys2Proof.Machine.execRotset o s
  | .settle o => Sys2Proof.Machine.execSettle o s
  | .yield o => Sys2Proof.Machine.execYield o s
  | .drift o => Sys2Proof.Machine.execDrift o s
  | .trap o => Sys2Proof.Machine.execTrap o s
  | .ppop o => Sys2Proof.Machine.execPpop o s
  | .endTask o => Sys2Proof.Machine.execEndTask o s
  | .taskEnd t => Sys2Proof.Machine.execTaskEnd t s
  | .movI64 o => Sys2Proof.Machine.execMovI64 o s
  | .addI64 o => Sys2Proof.Machine.execAddI64 o s
  | .subI64 o => Sys2Proof.Machine.execSubI64 o s
  | .and o => Sys2Proof.Machine.execAnd o s
  | .or o => Sys2Proof.Machine.execOr o s
  | .xor o => Sys2Proof.Machine.execXor o s
  | .shl o => Sys2Proof.Machine.execShl o s
  | .shr o => Sys2Proof.Machine.execShr o s
  | .sar o => Sys2Proof.Machine.execSar o s
  | .minI64 o => Sys2Proof.Machine.execMinI64 o s
  | .maxI64 o => Sys2Proof.Machine.execMaxI64 o s
  | .mulI64 o => Sys2Proof.Machine.execMulI64 o s
  | .mulhI64 o => Sys2Proof.Machine.execMulhI64 o s
  | .cmpeqI64 o => Sys2Proof.Machine.execCmpeqI64 o s
  | .cmpneI64 o => Sys2Proof.Machine.execCmpneI64 o s
  | .cmpltI64 o => Sys2Proof.Machine.execCmpltI64 o s
  | .cmpleI64 o => Sys2Proof.Machine.execCmpleI64 o s
  | .qand o => Sys2Proof.Machine.execQand o s
  | .qor o => Sys2Proof.Machine.execQor o s
  | .qxor o => Sys2Proof.Machine.execQxor o s
  | .qnot o => Sys2Proof.Machine.execQnot o s
  | .bfx o => Sys2Proof.Machine.execBfx o s
  | .bfi o => Sys2Proof.Machine.execBfi o s
  | .popc o => Sys2Proof.Machine.execPopc o s
  | .clz o => Sys2Proof.Machine.execClz o s
  | .ld o => Sys2Proof.Machine.execLd o s
  | .st o => Sys2Proof.Machine.execSt o s
  | .mfsr o => Sys2Proof.Machine.execMfsr o s
  | .mtsr o => Sys2Proof.Machine.execMtsr o s
  | .wid o => Sys2Proof.Machine.execWid o s
  | .vmov o => Sys2Proof.Machine.execVmov o s
  | .vand o => Sys2Proof.Machine.execVand o s
  | .vor o => Sys2Proof.Machine.execVor o s
  | .vxor o => Sys2Proof.Machine.execVxor o s
  | .vandn o => Sys2Proof.Machine.execVandn o s
  | .vshlT t o => Sys2Proof.Machine.execVshlT t o s
  | .vshrT t o => Sys2Proof.Machine.execVshrT t o s
  | .vaddT t o => Sys2Proof.Machine.execVaddT t o s
  | .vsubT t o => Sys2Proof.Machine.execVsubT t o s
  | .vminT t o => Sys2Proof.Machine.execVminT t o s
  | .vmaxT t o => Sys2Proof.Machine.execVmaxT t o s
  | .vcmpeqT t o => Sys2Proof.Machine.execVcmpeqT t o s
  | .vcmpltT t o => Sys2Proof.Machine.execVcmpltT t o s
  | .vcmpleT t o => Sys2Proof.Machine.execVcmpleT t o s
  | .vsel o => Sys2Proof.Machine.execVsel o s
  | .pand o => Sys2Proof.Machine.execPand o s
  | .por o => Sys2Proof.Machine.execPor o s
  | .pxor o => Sys2Proof.Machine.execPxor o s
  | .pnot o => Sys2Proof.Machine.execPnot o s
  | .vaddF bf o => Sys2Proof.Machine.execVaddF bf o s
  | .vsubF bf o => Sys2Proof.Machine.execVsubF bf o s
  | .vminF bf o => Sys2Proof.Machine.execVminF bf o s
  | .vmaxF bf o => Sys2Proof.Machine.execVmaxF bf o s
  | .vcmpeqF bf o => Sys2Proof.Machine.execVcmpeqF bf o s
  | .vcmpltF bf o => Sys2Proof.Machine.execVcmpltF bf o s
  | .vcmpleF bf o => Sys2Proof.Machine.execVcmpleF bf o s
  | .vabsF bf o => Sys2Proof.Machine.execVabsF bf o s
  | .vcvt o => Sys2Proof.Machine.execVcvt o s
  | .vmulF32 o => Sys2Proof.Machine.execVmulF32 o s
  | .vmulBf16 o => Sys2Proof.Machine.execVmulBf16 o s
  | .vfmaF32 o => Sys2Proof.Machine.execVfmaF32 o s
  | .vfmaBf16 o => Sys2Proof.Machine.execVfmaBf16 o s
  | .vfmsF32 o => Sys2Proof.Machine.execVfmsF32 o s
  | .vfmaF64 o => Sys2Proof.Machine.execVfmaF64 o s
  | .vmulF64 o => Sys2Proof.Machine.execVmulF64 o s
  | .vaddF64 o => Sys2Proof.Machine.execVaddF64 o s
  | .vmulI32 o => Sys2Proof.Machine.execVmulI32 o s
  | .vmulhI32 o => Sys2Proof.Machine.execVmulhI32 o s
  | .vdotI8 o => Sys2Proof.Machine.execVdotI8 o s
  | .vdotI16 o => Sys2Proof.Machine.execVdotI16 o s
  | .vshuf o => Sys2Proof.Machine.execVshuf o s
  | .vhbswap o => Sys2Proof.Machine.execVhbswap o s
  | .vhbld o => Sys2Proof.Machine.execVhbld o s
  | .vshaddI32 o => Sys2Proof.Machine.execVshaddI32 o s
  | .vshaddF32 o => Sys2Proof.Machine.execVshaddF32 o s
  | .vshmaxF32 o => Sys2Proof.Machine.execVshmaxF32 o s
  | .vshminF32 o => Sys2Proof.Machine.execVshminF32 o s
  | .vshaddBf16 o => Sys2Proof.Machine.execVshaddBf16 o s
  | .vrcpF32 o => Sys2Proof.Machine.execVrcpF32 o s
  | .vrsqF32 o => Sys2Proof.Machine.execVrsqF32 o s
  | .vexp2F32 o => Sys2Proof.Machine.execVexp2F32 o s
  | .vlog2F32 o => Sys2Proof.Machine.execVlog2F32 o s
  | .vdivF32 o => Sys2Proof.Machine.execVdivF32 o s
  | .vsqrtF32 o => Sys2Proof.Machine.execVsqrtF32 o s
  | .vxc o => Sys2Proof.Machine.execVxc o s
  | .vtap o => Sys2Proof.Machine.execVtap o s
  | .vput o => Sys2Proof.Machine.execVput o s
  | .mrd o => Sys2Proof.Machine.execMrd o s
  | .mwr o => Sys2Proof.Machine.execMwr o s
  | .mrdt o => Sys2Proof.Machine.execMrdt o s
  | .mwrm o => Sys2Proof.Machine.execMwrm o s
  | .mstag o => Sys2Proof.Machine.execMstag o s
  | .correctableError b => Sys2Proof.Machine.execCorrectableError b s
  | .freezeEnd b => Sys2Proof.Machine.execFreezeEnd b s
  | .mma o => Sys2Proof.Machine.execMma o s
  | .mmat o => Sys2Proof.Machine.execMmat o s
  | .mzero o => Sys2Proof.Machine.execMzero o s
  | .mdrain o => Sys2Proof.Machine.execMdrain o s
  | .mclaim o => Sys2Proof.Machine.execMclaim o s
  | .mrel o => Sys2Proof.Machine.execMrel o s
  | .moml o => Sys2Proof.Machine.execMoml o s
  | .aprd o => Sys2Proof.Machine.execAprd o s
  | .apwr o => Sys2Proof.Machine.execApwr o s
  | .apadd o => Sys2Proof.Machine.execApadd o s
  | .hopen o => Sys2Proof.Machine.execHopen o s
  | .hopenChild o => Sys2Proof.Machine.execHopenChild o s
  | .hpush o => Sys2Proof.Machine.execHpush o s
  | .hpushRecord b => Sys2Proof.Machine.execHpushRecord b s
  | .hpop o => Sys2Proof.Machine.execHpop o s
  | .hpopCommit b => Sys2Proof.Machine.execHpopCommit b s
  | .hmark o => Sys2Proof.Machine.execHmark o s
  | .hmarkDrop o => Sys2Proof.Machine.execHmarkDrop o s
  | .hcut o => Sys2Proof.Machine.execHcut o s
  | .hsplit o => Sys2Proof.Machine.execHsplit o s
  | .hseal o => Sys2Proof.Machine.execHseal o s
  | .childArrival b => Sys2Proof.Machine.execChildArrival b s
  | .hjoin o => Sys2Proof.Machine.execHjoin o s
  | .hjoinTimeout b => Sys2Proof.Machine.execHjoinTimeout b s
  | .htbl o => Sys2Proof.Machine.execHtbl o s
  | .hstat o => Sys2Proof.Machine.execHstat o s
  | .hflushDown o => Sys2Proof.Machine.execHflushDown o s
  | .hflushUp o => Sys2Proof.Machine.execHflushUp o s
  | .hclose o => Sys2Proof.Machine.execHclose o s
  | .hcloseDiscard o => Sys2Proof.Machine.execHcloseDiscard o s
  | .hodWindow b => Sys2Proof.Machine.execHodWindow b s
  | .cpy o => Sys2Proof.Machine.execCpy o s
  | .cpym o => Sys2Proof.Machine.execCpym o s
  | .cpyd o => Sys2Proof.Machine.execCpyd o s
  | .cpyv o => Sys2Proof.Machine.execCpyv o s
  | .copyBeat b => Sys2Proof.Machine.execCopyBeat b s
  | .copyLineWrite b => Sys2Proof.Machine.execCopyLineWrite b s
  | .lsend o => Sys2Proof.Machine.execLsend o s
  | .lrecv o => Sys2Proof.Machine.execLrecv o s
  | .credF32 o => Sys2Proof.Machine.execCredF32 o s
  | .credBf16 o => Sys2Proof.Machine.execCredBf16 o s
  | .cbcast o => Sys2Proof.Machine.execCbcast o s
  | .cgath o => Sys2Proof.Machine.execCgath o s
  | .senderReadyCheck b => Sys2Proof.Machine.execSenderReadyCheck b s
  | .flitDeparture b => Sys2Proof.Machine.execFlitDeparture b s
  | .flitArrival f => Sys2Proof.Machine.execFlitArrival f s
  | .nakArrival rank aOut => Sys2Proof.Machine.execNakArrival rank aOut s
  | .flitRetry b => Sys2Proof.Machine.execFlitRetry b s
  | .takeWindowEnd => Sys2Proof.Machine.execTakeWindowEnd s
  | .aaddI32 o => Sys2Proof.Machine.execAaddI32 o s
  | .aaddF32 o => Sys2Proof.Machine.execAaddF32 o s
  | .aaddBf16 o => Sys2Proof.Machine.execAaddBf16 o s
  | .amaxI32 o => Sys2Proof.Machine.execAmaxI32 o s
  | .amaxF32 o => Sys2Proof.Machine.execAmaxF32 o s
  | .aminI32 o => Sys2Proof.Machine.execAminI32 o s
  | .aminF32 o => Sys2Proof.Machine.execAminF32 o s
  | .axor o => Sys2Proof.Machine.execAxor o s
  | .arowadd o => Sys2Proof.Machine.execArowadd o s
  | .rowld o => Sys2Proof.Machine.execRowld o s
  | .rowldf o => Sys2Proof.Machine.execRowldf o s
  | .atomicEntry b => Sys2Proof.Machine.execAtomicEntry b s
  | .atomicApplication ch => Sys2Proof.Machine.execAtomicApplication ch s
  | .rowRead b => Sys2Proof.Machine.execRowRead b s
  | .upd o => Sys2Proof.Machine.execUpd o s
  | .updStart b => Sys2Proof.Machine.execUpdStart b s
  | .unorm o => Sys2Proof.Machine.execUnorm o s
  | .await o => Sys2Proof.Machine.execAwait o s
  | .fencevOrder o => Sys2Proof.Machine.execFencevOrder o s
  | .fencevDone o => Sys2Proof.Machine.execFencevDone o s
  | .vstat o => Sys2Proof.Machine.execVstat o s
  | .variableGranule b v g d => Sys2Proof.Machine.execVariableGranule b v g d s
  | .variableDone b v e => Sys2Proof.Machine.execVariableDone b v e s
  | .pageFault b v code off => Sys2Proof.Machine.execPageFault b v code off s
  | .completionTimeout b v => Sys2Proof.Machine.execCompletionTimeout b v s
  | .vprespResume b v => Sys2Proof.Machine.execVprespResume b v s
  | .vprespAbort b v => Sys2Proof.Machine.execVprespAbort b v s
  | .vpinv => Sys2Proof.Machine.execVpinv s
  | .act b r st => Sys2Proof.Machine.execAct b r st s
  | .rd b c => Sys2Proof.Machine.execRd b c s
  | .wr b c e => Sys2Proof.Machine.execWr b c e s
  | .wrb b c e => Sys2Proof.Machine.execWrb b c e s
  | .wrs b c e p => Sys2Proof.Machine.execWrs b c e p s
  | .rdx b c => Sys2Proof.Machine.execRdx b c s
  | .pre b => Sys2Proof.Machine.execPre b s
  | .prea => Sys2Proof.Machine.execPrea s
  | .ref b a => Sys2Proof.Machine.execRef b a s
  | .rsw b => Sys2Proof.Machine.execRsw b s
  | .gap n => Sys2Proof.Machine.execGap n s
  | .sync f => Sys2Proof.Machine.execSync f s
  | .parityApplication ch => Sys2Proof.Machine.execParityApplication ch s
  | .closingPre ch => Sys2Proof.Machine.execClosingPre ch s
  | .idleRefresh ch => Sys2Proof.Machine.execIdleRefresh ch s
  | .refreshMiss ch => Sys2Proof.Machine.execRefreshMiss ch s
  | .readReturnDrop ch => Sys2Proof.Machine.execReadReturnDrop ch s
  | .timelineStop t => Sys2Proof.Machine.execTimelineStop t s
  | .lossEvent stack one => Sys2Proof.Machine.execLossEvent stack one s
  | .rbmarkWrite ch v => Sys2Proof.Machine.execRbmarkWrite ch v s
  | .bpladdWrite stack ch bank row => Sys2Proof.Machine.execBpladdWrite stack ch bank row s
  | .faqpopRead upper => Sys2Proof.Machine.execFaqpopRead upper s
  | .tornpopRead upper => Sys2Proof.Machine.execTornpopRead upper s
  | .ydcecntRead die => Sys2Proof.Machine.execYdcecntRead die s
  | .lnkretryRead port => Sys2Proof.Machine.execLnkretryRead port s
  | .admitRead n => Sys2Proof.Machine.execAdmitRead n s
  | .fcolWrite k v => Sys2Proof.Machine.execFcolWrite k v s
  | .hodcolWrite k v => Sys2Proof.Machine.execHodcolWrite k v s
  | .savcolWrite k v => Sys2Proof.Machine.execSavcolWrite k v s
  | .rangeEntryWrite k n r v => Sys2Proof.Machine.execRangeEntryWrite k n r v s
  | .mcwinWrite die w v => Sys2Proof.Machine.execMcwinWrite die w v s
  | .partitionChange k bricks => Sys2Proof.Machine.execPartitionChange k bricks s
  | .registerWrite agent r v => Sys2Proof.Machine.execRegisterWrite agent r v s
  | .courseCycleTick => Sys2Proof.Machine.execCourseCycleTick s
  | .drerelMarkerSend => Sys2Proof.Machine.execDrerelMarkerSend s
  | .drerelMarker m f => Sys2Proof.Machine.execDrerelMarker m f s
  | .markerLoss rank => Sys2Proof.Machine.execMarkerLoss rank s
  | .linkLoss port rank => Sys2Proof.Machine.execLinkLoss port rank s
  | .slipNotice up n => Sys2Proof.Machine.execSlipNotice up n s
  | .pathCalibration paths parent first => Sys2Proof.Machine.execPathCalibration paths parent first s
  | .launch port ws => Sys2Proof.Machine.execLaunch port ws s
  | .preemptionRequest port ws => Sys2Proof.Machine.execPreemptionRequest port ws s
  | .sliceBoundary k => Sys2Proof.Machine.execSliceBoundary k s
  | .takePoint t => Sys2Proof.Machine.execTakePoint t s
  | .forcedPreemption b => Sys2Proof.Machine.execForcedPreemption b s
  | .taskStart t => Sys2Proof.Machine.execTaskStart t s
  | .trapPoint b => Sys2Proof.Machine.execTrapPoint b s
  | .brkctlResume b => Sys2Proof.Machine.execBrkctlResume b s
  | .brkctlEnd b => Sys2Proof.Machine.execBrkctlEnd b s
  | .brkctlPark b => Sys2Proof.Machine.execBrkctlPark b s
  | .reset img => Sys2Proof.Machine.execReset img s
  | .memoryInitialisation t => Sys2Proof.Machine.execMemoryInitialisation t s
  | .hsemRead agents => Sys2Proof.Machine.execHsemRead agents s
  | .hsemWrite agent v => Sys2Proof.Machine.execHsemWrite agent v s
  | .admlockWrite => Sys2Proof.Machine.execAdmlockWrite s
  | .powerFrame watts => Sys2Proof.Machine.execPowerFrame watts s
  | .clampHalt inlet flow junction => Sys2Proof.Machine.execClampHalt inlet flow junction s
  | .attgo => Sys2Proof.Machine.execAttgo s
  | .flitAbsent b => Sys2Proof.Machine.execFlitAbsent b s
  | .retrySlotEnd b => Sys2Proof.Machine.execRetrySlotEnd b s
  | .stateWindowWrite b e => Sys2Proof.Machine.execStateWindowWrite b e s
  | .savebaseWrite v => Sys2Proof.Machine.execSavebaseWrite v s
  | .measurementExtend n v => Sys2Proof.Machine.execMeasurementExtend n v s

end Sys2Proof.Machine
end

