-- ==== Sys2Proof/Machine/Fetch.lean ====
section
/-! DEFINITION. The work of a Course cycle in its order, and the fetch of the next operation (R39, R128, R165, R331, R377, R395,
R410; log entry 3). -/

namespace Sys2Proof.Machine

/-- The part of a Course cycle in which an operation from outside happens: 1 as the cycle begins, 7 the variable engines, 10
launches, 11 requests, 12 to 14 writes to registers; a loss comes before every effect of its cycle (R105, R128, R331, R377, R410; log entry
156). -/
def inputPhase : Instr → Nat
  | .flitArrival _ => 1
  | .nakArrival _ _ => 1
  | .drerelMarker _ _ => 1
  | .drerelMarkerSend => 1
  | .markerLoss _ => 1
  | .linkLoss _ _ => 1
  | .slipNotice _ _ => 1
  | .lossEvent _ _ => 1
  | .pathCalibration _ _ _ => 1
  | .reset _ => 1
  | .memoryInitialisation _ => 1
  | .ydcecntRead _ => 1
  | .lnkretryRead _ => 1
  | .admitRead _ => 1
  | .faqpopRead _ => 1
  | .tornpopRead _ => 1
  | .variableGranule _ _ _ _ => 6
  | .variableDone _ _ _ => 7
  | .pageFault _ _ _ _ => 7
  | .completionTimeout _ _ => 7
  | .vprespResume _ _ => 7
  | .vprespAbort _ _ => 7
  | .childArrival _ => 7
  | .correctableError _ => 7
  | .launch _ _ => 10
  | .preemptionRequest _ _ => 11
  | .powerFrame _ => 12
  | .admlockWrite => 14
  | _ => 13

/-- The inputs of a part of this Course cycle (due ones; one that a held tick or a calibration has passed comes next). -/
def State.dueInputs (s : State) (n : Nat) : List Instr :=
  (s.inputs.filter fun i => i.1 ≤ s.ct && inputPhase i.2 == n).map (·.2)

/-- The inputs of a part of this cycle become its work. -/
def State.takeInputs (s : State) (n : Nat) : State :=
  { s with inputs := s.inputs.filter fun i => !(i.1 ≤ s.ct && inputPhase i.2 == n) }.push ((s.dueInputs n).map Todo.event)

/-- Bricks on which a task runs. -/
def State.liveBricks (s : State) : List Nat := (s.bricks.filter fun q => q.2.running).map (·.1)

/-- The homes with held timed commands, of parked tasks too (R388). -/
def State.holders (s : State) (p : Held → Bool) : List Nat := s.homesWith fun x => x.held.any p

/-- The channels of which something holds. -/
def State.someChannels (s : State) (p : Channel → Bool) : List Nat := (s.channels.filter fun q => p q.2).map (·.1)

def Todo.onBricks (bs : List Nat) (f : Nat → Instr) : List Todo := bs.map fun b => .event (f b)

/-- The bricks that a resume of brick b takes with it: those of its task, unless the task is bound (R382, R391). -/
def State.resumeGroup (s : State) (b : Nat) : List Nat :=
  match (s.brick b).task with
  | some t => if (s.task t).bound then [b] else (s.task t).mask.filter fun c => (s.brick c).task == some t
  | none => [b]

/-- The resumes due on this cycle. One that finds another brick of the task trapped since waits for it (R391). -/
def State.resumes (s : State) : State :=
  let due := (s.bricks.filter fun q => q.2.trap.resumeAt == some s.ct).map (·.1)
  let ready (b : Nat) : Bool := (s.resumeGroup b).all fun c =>
    !(s.brick c).trap.trapped || (s.brick c).trap.code == 0x10 || due.contains c
  let go := due.filter ready
  let s1 := due.foldl (fun s b => s.onBrick b fun x => { x with trap := { x.trap with resumeAt := none } }) s
  let s2 := (go.flatMap s.resumeGroup).foldl (fun s b => s.onBrick b fun x => { x with frz := { x.frz with withTask := false } }) s1
  let s3 := go.foldl State.resumeTrap s2
  (go.filter fun b => (s3.brick b).trap.trapped && (s3.brick b).trap.code != 0x10).foldl State.freezeTask s3

/-- Requests that arrive on this cycle stop the bricks from its start, unless the task's END issues on it (R374, R377). -/
def State.markRequests (s : State) : State :=
  (s.dueInputs 11).foldl (fun s i =>
    match i with
    | .preemptionRequest port ws =>
      match (if s.takesMessage port then s.requested ws else none) with
      | some t => if (s.task t).preempt.isSome || s.taskEnds t then s else s.preemptTask t true
      | none => s
    | _ => s) s

/-- The faults found since; one found before an error freeze began absorbs it (R379, R395). -/
def State.beginStops (s : State) : State :=
  s.push (Todo.onBricks ((s.bricks.filter fun q => !q.2.trap.found.isEmpty &&
    (q.2.trap.trapped || q.2.frz.ceUntil < s.ct || q.2.trap.found.any fun f => f.cycle < q.2.frz.ceFrom)).map (·.1)) .trapPoint)

/-- Requests and take points, of tasks that start on this very cycle too, which they stop before their first issue; then freezes that end,
and the faults found since (R168, R373, R374, R377; log entry 151). -/
def State.beginTakes (s0 : State) : State :=
  let s := s0.markRequests
  let points := (s.tasks.filter fun t => t.2.state == .startPending && t.2.start == s.ct + takeLead).map fun t => Todo.event (.takePoint t.1)
  let thaw := (s.bricks.filter fun q => q.2.frz.ceUntil ≠ 0 && q.2.frz.ceUntil < s.ct).map (·.1)
  s.push (points ++ Todo.onBricks thaw .freezeEnd ++ [.phase 0])

/-- The cycle begins: resumes, then acceptances, slice boundaries and starts, and then take points in the order of R377 (R370, R371,
R373, R391). -/
def State.beginCycle (s : State) : State :=
  let s1 := s.resumes
  let starts := (s1.tasks.filter fun t => t.2.state == .placed && t.2.firstIssue == s.ct).map fun t => Todo.event (.taskStart t.1)
  let edges := (s1.parts.filter fun p => s.ct % (4096 * p.2.slice) == 0).map fun p => Todo.event (.sliceBoundary p.1)
  (s1.push (edges ++ starts ++ [.phase 16])).takeInputs 10

/-- A brick past its END has no plan cycle left to run (R189). -/
def State.idles (s : State) (b : Nat) : Bool := s.frozen b || (s.brick b).drained

/-- Records of parked tasks' bricks join the queues of their images (R237, R311, R394). -/
def State.flushParked (s : State) : State :=
  ((s.homesWith fun x => !x.pollenNew.isEmpty).filter (768 ≤ ·)).foldl (fun s n => (s.onHome n flushPollen).syncImage n (s.home n)) s

/-- The bricks' plan cycles: records join their queues, the registers are latched, the bricks run in rising order (R197, R237). -/
def State.beginBricks (s0 : State) : State :=
  let s := s0.flushParked
  let live := s.liveBricks
  let s1 := (live.filter s.idles).foldl State.passFrozen s
  { s1 with
    bricks := s1.bricks.map fun (q : Nat × Brick) => (q.1, countFreeze s.ct (if q.2.pollenNew.isEmpty then q.2 else flushPollen q.2))
    ran := []
    before := [] }.push ((live.filter fun b => !s.idles b).map Todo.brickStart)

/-- A running timeline of an owned cycle (R79, R81). -/
def State.owns (s : State) (l : Timeline) : Bool :=
  l.running && inColumns (s.part (s.task l.task).part).owned s.ct

/-- The commands that stand to issue on this cycle: channel, task, word (R80, R102). -/
def State.standing (s : State) : List (Nat × Nat × BitVec 32) :=
  s.channels.flatMap fun q => (q.2.timelines.filter fun l => s.owns l && l.idle == 0).map fun l => (q.1, l.task, l.cmds.getD l.pos 0)

/-- Owned cycles that a GAP idles pass (R83). -/
def State.idleTimelines (s : State) : State :=
  { s with
    channels := s.channels.map fun q =>
      (q.1, { q.2 with timelines := q.2.timelines.map fun l => if s.owns l && l.idle ≠ 0 then { l with idle := l.idle - 1 } else l }) }

/-- A command of a brick whose flit departs 10 cycles from now (R347 cause 4). -/
def State.checksSender (s : State) (h : Held) : Bool := h.isLink && !h.cancelled && h.sends && h.course == s.ct + 10

/-- HBM: writes that perform, blocks that return, the slips that links cause and their notices, atomics that enter, then the timelines
(R89, R99, R297, R352). -/
def State.beginChannels (s : State) : State :=
  let s0 := s.ran.foldl State.landSteps s
  let s1 := s0.performWrites.settleReturns
  let cmds := s1.standing
  let s2 := { s1.idleTimelines with time := { s1.time with cmds := cmds } }
  let enter := s.ran.filter fun b => (s.brick b).held.any fun h => h.isAtomic && !h.done && h.p + 12 == (s.brick b).now
  (s.ran.foldl State.failTakes (s2.push (Todo.onBricks enter .atomicEntry ++ cmds.map fun c => Todo.timeline c.1 c.2.1))).push
    (Todo.onBricks (s.holders s.checksSender) .senderReadyCheck)

/-- The controllers' own work: run ends, applications, stops, idle refreshes, the frame's misses (R81, R86, R87, R88). -/
def State.controllers (s : State) : State :=
  let all := List.range 768
  let stops := (s.tasks.filter fun t => t.2.tlStopAt == some s.ct && !t.2.tlStopped).map fun t => Todo.event (.timelineStop t.1)
  (s.runEnds fun _ => true).push
    (Todo.onBricks (s.someChannels fun c => !c.atomics.isEmpty) .atomicApplication ++
      Todo.onBricks (s.someChannels fun c => !c.parity.isEmpty) .parityApplication ++ stops ++
      (if s.trained && s.ct % 256 + 250 ≤ 256 then Todo.onBricks all .idleRefresh else []) ++
      (if s.trained && s.ct % 4096 == 4095 then Todo.onBricks all .refreshMiss else []))

/-- The norms that collectives set on this cycle (R39, R308, R349). -/
def State.setNorms (s : State) : State :=
  s.ran.foldl (fun s b => (s.brick b).held.foldl (fun s h => s.linkNorm b h) s) s

/-- The engines read, and the variable engines with them (R135, R143, R165, R302, R309). -/
def State.engineReads (s0 : State) : State :=
  let s := s0.setNorms
  let busy (p : Held → Bool) : List Nat := s.ran.filter fun b => (s.brick b).held.any p
  let banks := s.yardTurn
  let pieces := banks.1.takePieces banks.2
  pieces.1.push
    (Todo.onBricks (busy fun h => h.opc == 0x40) .updStart ++ Todo.onBricks (busy fun _ => true) .copyBeat ++
      Todo.onBricks (s.holders fun h => h.isRowRead && h.done) .rowRead ++ pieces.2)

/-- The bricks that the Hod windows of this cycle serve (R283). -/
def State.windowBricks (s : State) : List Nat :=
  if s.ct % 64 = 0 then
    ((List.range 32).map fun ch => 32 * (s.ct / 64 % 24) + ch).filter fun b =>
      (s.brick b).running && (s.brick b).hod.core.mode != .closed &&
      match s.partOfBrick b with
      | some k => inColumns (s.part k).hodcol s.ct
      | none => false
  else []

/-- Writes, after every read of the cycle: the variable engines', then the timed ones by brick number, then the bundles' own, each
prevailing over those before it (R39, R129, R144, R165); then the Hod's windows (R285). -/
def State.cycleWrites (s : State) : State :=
  let copies := s.homesWith fun x => !x.held.isEmpty
  let lands := s.ran.flatMap fun b => List.replicate (dueCount (s.brick b) 2) (Todo.event (.resultLanding b 2))
  s.performVars.hodCourse.push
    (Todo.onBricks copies .copyLineWrite ++ lands ++ Todo.onBricks s.windowBricks .hodWindow)

/-- Links: departures, retries, takes that end, of parked tasks' commands too (R341 to R347, R388). -/
def State.linkWork (s : State) : State :=
  let at' (p : Held → Bool) (f : Nat → Instr) : List Todo := Todo.onBricks (s.holders fun h => h.isLink && !h.cancelled && p h) f
  s.push
    (at' (fun h => h.sends && !h.done && h.course == s.ct) .flitDeparture ++
      at' (fun h => h.retryDue s && h.nak) .flitRetry ++
      at' (fun h => h.sends && h.crit && h.done && h.course + s.rt h.dstRank + 4 ≤ s.ct) .retrySlotEnd ++
      at' (fun h => h.takes && h.critIn && h.aIn == s.ct32) .flitAbsent ++
      (if s.landing.isEmpty then [] else [.event .takeWindowEnd]))

/-- Requests; tasks whose END has issued everywhere (R81, R374). -/
def State.scheduling (s : State) : State := (s.endings.foldl State.beginEnd s).takeInputs 11

/-- Tasks that yield, park or end (R189, R372, R375). -/
def State.settleTasks (s : State) : State :=
  let s1 := s.yields.foldl State.yieldTask s
  let s2 := s1.stoppedTasks.foldl (fun s t => s.parkTask t true) s1
  s2.push (s2.finished.map fun t => Todo.event (.taskEnd t))

/-- The writes of the Mason and the hosts; ADMLOCK after the other writes, the frame's power before them (R410). -/
def State.registerInputs (s : State) : State := ((s.takeInputs 14).takeInputs 13).takeInputs 12

/-- The MTSRs of the cycle perform again, after its hardware updates (R197). -/
def State.settleRegisters (s : State) : State :=
  ((s.bricks.filter fun q => !q.2.mtsr.isEmpty).map (·.1)).foldl State.settleSys s

/-- The parts of a Course cycle, in order. -/
def State.phase (s : State) (n : Nat) : State :=
  match n with
  | 0 => s.beginStops
  | 1 => (s.powerUp.attest).takeInputs 1
  | 2 => s.beginCycle
  | 3 => s.beginBricks
  | 4 => s.beginChannels
  | 5 => s.controllers
  | 6 => s.engineReads
  | 7 => (s.takeInputs 7).push (s.overdue ++
      Todo.onBricks (s.someChannels fun c => c.ret.any fun r => decide (r.from' + 63 ≤ s.ct)) .readReturnDrop)
  | 8 => s.cycleWrites
  | 9 => s.linkWork
  | 10 => s.scheduling
  | 11 => s.settleTasks
  | 12 => s.makeOffers
  | 13 => s.push (Todo.onBricks (s.someChannels fun c => !c.closing.isEmpty) .closingPre)
  | 14 => s.registerInputs
  | 15 => s.settleRegisters
  | 16 => s.beginTakes
  | _ => s

/-- What a step does: run an operation in a state, go on with a state, or stop. -/
inductive Work where
  | run (i : Instr) (s : State)
  | done (s : State)
  | stop (f : Fault)
  deriving DecidableEq, Repr

/-- The command of a task's timeline on a channel is fetched and decoded; one that has stopped since issues nothing
(R80, R82, R85). -/
def State.fetchTimeline (s : State) (ch task : Nat) : Work :=
  match (s.channel ch).timelines.find? fun (l : Timeline) => l.task == task && l.running with
  | none => .done s
  | some l =>
    let s1 := { s with time := { s.time with ch := ch, task := task, index := l.pos } }
    match decodeTimeline (l.cmds.getD l.pos 0).toNat with
    | some i => .run i s1
    | none => .done s1.timelineBad

/-- The held word of a live slot of the issuing bundle is decoded (R42). -/
def State.fetchSlot (s : State) (pos : Nat) : Work :=
  match decodeSlot pos (heldWord s.cur pos) with
  | some i => .run i s
  | none => .stop .strayWord

def isReset : Instr → Bool
  | .reset _ => true
  | _ => false

/-- A package whose arithmetic clock has halted waits for a reset (R407). -/
def State.halted (s : State) : Work :=
  match s.inputs.find? fun i => isReset i.2 with
  | some i => .run i.2 { s with inputs := s.inputs.erase i, agenda := [] }
  | none => .stop .clockHalted

/-- The next operation: the head of the agenda; a new Course cycle where nothing is left of the last. -/
def State.fetch (s : State) : Work :=
  if s.mason.pwrL2 then s.halted
  else match s.agenda with
    | [] => .run .courseCycleTick s
    | t :: rest =>
      let s1 := { s with agenda := rest }
      match t with
      | .event i => .run i s1
      | .timeline ch task => s1.fetchTimeline ch task
      | .slot pos => s1.fetchSlot pos
      | .phase n => .done (s1.phase n)
      | .brickStart b => .done (s1.startBrick b)
      | .commit => .done s1.commitIssue

/-- A brick that stands at a bundle holding one operation: its slot is live, the bundle is about to issue it. -/
def State.withSlot (s : State) (pos w : Nat) : State :=
  let x := setHeld { Brick.reset with task := some 0, running := true } pos w
  { s with
    bricks := tins s.bricks 0 x
    issue := { IssueCtx.reset with active := true, start := some x, saved := some x }
    agenda := [.slot pos, .commit] }

/-- A task that runs on channel 0 with a timeline of one command. -/
def State.withTimeline (s : State) (w : BitVec 32) : State :=
  let img := { Task.none.image with timelines := [(0, [w])] }
  { s with
    tasks := tins s.tasks 0 { Task.none with mask := [0], image := img, state := .running }
    parts := tins s.parts 0 { s.part 0 with bricks := [0], fcol := 0xFFFF, hodcol := 0, savcol := 0 }
    channels := tins s.channels 0
      { s.channel 0 with timelines := [{ task := 0, cmds := [w], pos := 0, pass := 0, idle := 0, running := true }] }
    time := { ch := 0, task := 0, index := 0, cmds := [(0, 0, w)] }
    agenda := [.timeline 0 0] }

end Sys2Proof.Machine
end

