-- ==== Sys2Proof/Machine/Step.lean ====
section
/-! DEFINITION. One step: the next operation of the Course cycle's work is fetched and run. -/

namespace Sys2Proof.Machine

/-- One step of the package. -/
def step (s : State) : Host.Outcome State Fault Refusal :=
  match s.fetch with
  | .run i t => exec i t
  | .done t => .next t
  | .stop f => .fault f

/-- The state with an instruction placed where the next step fetches it: a timeline command as the command of a task's timeline,
a bundle's only slot word as the held word of the issuing bundle. Programs come to run as log entry 8 says. -/
def State.withFetchWord (s : State) (nbits w : Nat) : State :=
  if nbits ≤ 32 then s.withTimeline (BitVec.ofNat 32 (w % 2 ^ nbits))
  else s.withSlot ((maskPositions (w % 2 ^ 64)).headD 0) (w % 2 ^ nbits / 2 ^ 64)

end Sys2Proof.Machine
end

