-- ==== Sys2Proof/Safety.lean ====
section
/-! DEFINITION. What counts as a safe run, and the terms in which the statements are said: the canonical form of the package's
memories, effects that join those in flight, a register free for a result, what a brick shows of its architectural state. -/

namespace Sys2Proof.Machine

/-- The memories of the package: HBM, the Yards, the second tier, the Mason's private memory (R74, R116, R134, R399). -/
def State.mems (s : State) : List (List Host.Cell) := [s.hbm, s.yard, s.tier2, s.mason.memory]

/-- Every memory of the package is in canonical form. -/
def State.memoryWf (s : State) : Prop := ∀ m ∈ s.mems, Memory.wf m = true

/-- A run is safe while the arithmetic clock runs (R407) and no brick has a fault to deliver or has stopped at one (R378). -/
def State.safe (s : State) : Bool :=
  !s.mason.pwrL2 && s.bricks.all fun q => !q.2.trap.trapped && q.2.trap.found.isEmpty

/-- Effects join those in flight of the issuing brick, and nothing else of the package changes (R40). -/
def State.scheduled (s : State) (fs : List Flight) : State := s.onCur fun x => { x with flights := x.flights ++ fs }

/-- An effect of the operation in a slot, to be had lat plan cycles after this one, for every byte and with no event. -/
def State.effect (s : State) (slot lat : Nat) (latch : Bool) (d : Dest) (v : Line) : Flight :=
  { due := s.cur.seq.clk + lat, slot := slot, pc := s.issue.pc, issue := s.issue.issue, dest := d, latch := latch, value := v,
    mask := BitVec.allOnes 64, ev := .none, evMask := 0 }

/-- Nothing in flight lands in the register of an effect on the cycle of the effect (R41). -/
def State.freeFor (s : State) (f : Flight) : Bool := s.cur.flights.all fun g => !f.collides g

/-- An operand that a cluster slot reads is there: a tap finds a value, a register no uncorrectable error (R155, R204). -/
def State.operandOk (s : State) (c : Nat) (d : Opd) : Bool :=
  !clusterUe s.cur c d && match d with
    | .tap aw lane => (tap s.cur aw lane (2 * c + 1)).isSome
    | _ => true

/-- The brick as it stands on no fault: nothing found since the last cycle, not trapped. -/
def Brick.sound (x : Brick) : Bool := !x.trap.trapped && x.trap.found.isEmpty

end Sys2Proof.Machine
end

