-- ==== Sys2Proof/Certificates/Slice0/Obligations.lean ====
section
/-! DEFINITION. The statements about the model. The rows say, in the words of the spec's tables, what each operation computes; an
obligation says of each row when the operation has that effect and that it has no other. -/

namespace Sys2Proof.Rules

open Sys2Proof.Machine

/-- A scalar operation into a register (R192, R194): its latency, the operands it reads, and what its result is, given a, b and the
old destination. -/
structure ScalarRow where
  instr : SlotOp → Instr
  lat : Nat
  reads : SlotOp → List Opd
  result : SlotOp → Word → Word → Word → Word → Prop

/-- a ≤ b, unsigned where mod[0] is 1, else signed (R57). -/
def atMost (o : SlotOp) (a b : Word) : Prop := if o.mod % 2 = 1 then a.toNat ≤ b.toNat else a.toInt ≤ b.toInt

/-- a < b, unsigned where mod[0] is 1, else signed (R57). -/
def below (o : SlotOp) (a b : Word) : Prop := if o.mod % 2 = 1 then a.toNat < b.toNat else a.toInt < b.toInt

def readsAB (o : SlotOp) : List Opd := [o.a, o.b]
def readsA (o : SlotOp) : List Opd := [o.a]

def bitwise (f : Bool → Bool → Bool) (_ : SlotOp) (a b _ v : Word) : Prop :=
  ∀ i, i < 64 → v.getLsbD i = f (a.getLsbD i) (b.getLsbD i)

def arithmeticRows : List ScalarRow :=
  [⟨.movI64, 1, readsA, fun _ a _ _ v => v = a⟩,
   ⟨.addI64, 1, readsAB, fun _ a b _ v => v.toNat = (a.toNat + b.toNat) % 2 ^ 64⟩,
   ⟨.subI64, 1, readsAB, fun _ a b _ v => (v.toNat + b.toNat) % 2 ^ 64 = a.toNat⟩,
   ⟨.and, 1, readsAB, bitwise (· && ·)⟩,
   ⟨.or, 1, readsAB, bitwise (· || ·)⟩,
   ⟨.xor, 1, readsAB, bitwise (· != ·)⟩,
   ⟨.shl, 1, readsAB, fun _ a b _ v => ∀ i, i < 64 → v.getLsbD i = (decide (b.toNat % 64 ≤ i) && a.getLsbD (i - b.toNat % 64))⟩,
   ⟨.shr, 1, readsAB, fun _ a b _ v => ∀ i, i < 64 → v.getLsbD i = a.getLsbD (i + b.toNat % 64)⟩,
   ⟨.sar, 1, readsAB, fun _ a b _ v => ∀ i, i < 64 → v.getLsbD i = a.getLsbD (min 63 (i + b.toNat % 64))⟩,
   ⟨.minI64, 1, readsAB, fun o a b _ v => (v = a ∨ v = b) ∧ atMost o v a ∧ atMost o v b⟩,
   ⟨.maxI64, 1, readsAB, fun o a b _ v => (v = a ∨ v = b) ∧ atMost o a v ∧ atMost o b v⟩,
   ⟨.mulI64, 3, readsAB, fun _ a b _ v => v.toNat = a.toNat * b.toNat % 2 ^ 64⟩,
   ⟨.mulhI64, 3, readsAB, fun o a b _ v =>
     if o.mod % 2 = 1 then v.toNat = a.toNat * b.toNat / 2 ^ 64
     else v.toInt * 2 ^ 64 ≤ a.toInt * b.toInt ∧ a.toInt * b.toInt < (v.toInt + 1) * 2 ^ 64⟩,
   ⟨.popc, 1, readsA, fun _ a _ _ v => v.toNat = ((List.range 64).filter a.getLsbD).length⟩,
   ⟨.clz, 1, readsA, fun _ a _ _ v =>
     (a = 0 → v = 64) ∧ (a ≠ 0 → v.toNat < 64 ∧ a.getLsbD (63 - v.toNat) = true ∧ ∀ i, 63 - v.toNat < i → a.getLsbD i = false)⟩]

def bitFieldRows : List ScalarRow :=
  [⟨.bfx, 1, readsAB, fun o a b _ v => ∀ i, i < 64 → v.getLsbD i = (decide (i < b.toNat) && a.getLsbD (i + o.mod % 64))⟩,
   ⟨.bfi, 1, fun o => [o.a, o.dst], fun o a b d v => ∀ i, i < 64 → v.getLsbD i =
     if o.mod % 64 ≤ i ∧ i < o.mod % 64 + b.toNat then a.getLsbD (i - o.mod % 64) else d.getLsbD i⟩]

/-- A scalar operation into a q predicate (R193). -/
structure TestRow where
  instr : SlotOp → Instr
  reads : SlotOp → List Opd
  holds : SlotOp → Word → Word → Prop

def testRows : List TestRow :=
  [⟨.cmpeqI64, readsAB, fun _ a b => a = b⟩,
   ⟨.cmpneI64, readsAB, fun _ a b => a ≠ b⟩,
   ⟨.cmpltI64, readsAB, below⟩,
   ⟨.cmpleI64, readsAB, atMost⟩]

/-- A predicate operation on the q predicates that a and b name (R193); no operand is a register. -/
structure QRow where
  instr : SlotOp → Instr
  holds : Bool → Bool → Bool

def predicateRows : List QRow :=
  [⟨.qand, (· && ·)⟩, ⟨.qor, (· || ·)⟩, ⟨.qxor, (· != ·)⟩, ⟨.qnot, fun a _ => !a⟩]

end Sys2Proof.Rules

open Sys2Proof Sys2Proof.Machine Sys2Proof.Rules

/-- R192, R40, R41, R191: a scalar operation under a true guard, of sound operands and into a register that nothing else in flight
lands in on that cycle, has one effect: its result in the destination and the unit's latch, lat cycles on. -/
def Sys2Proof.Rules.ScalarArithmetic : Prop :=
  ∀ r ∈ arithmeticRows, ∀ (o : SlotOp) (s : State), guardTrue s.cur o.g = true → (r.reads o).any (scalarUe s.cur) = false →
    s.freeFor (s.effect o.pos r.lat true (.sreg o.dst.index) 0) = true →
    ∃ v, r.result o (scalarVal s.cur o.a) (scalarVal s.cur o.b) (readS s.cur o.dst.index) v ∧
      exec (r.instr o) s = .next (s.scheduled [s.effect o.pos r.lat true (.sreg o.dst.index) (v.setWidth 512)])

/-- R194: BFX takes the bits of a from pos, as many as b says; BFI puts the low bits of a there, and the other bits of the old
destination stay. -/
def Sys2Proof.Rules.BitFields : Prop :=
  ∀ r ∈ bitFieldRows, ∀ (o : SlotOp) (s : State), guardTrue s.cur o.g = true → (r.reads o).any (scalarUe s.cur) = false →
    s.freeFor (s.effect o.pos r.lat true (.sreg o.dst.index) 0) = true →
    ∃ v, r.result o (scalarVal s.cur o.a) (scalarVal s.cur o.b) (readS s.cur o.dst.index) v ∧
      exec (r.instr o) s = .next (s.scheduled [s.effect o.pos r.lat true (.sreg o.dst.index) (v.setWidth 512)])

/-- R193: a compare or a predicate operation writes 1 into its q predicate where it holds, else 0, at t+1. -/
def Sys2Proof.Rules.ScalarPredicates : Prop :=
  (∀ r ∈ testRows, ∀ (o : SlotOp) (s : State), guardTrue s.cur o.g = true → (r.reads o).any (scalarUe s.cur) = false →
    s.freeFor (s.effect o.pos 1 true (.qpred o.dst.index) 0) = true →
    ∃ v : Word, (r.holds o (scalarVal s.cur o.a) (scalarVal s.cur o.b) → v = 1) ∧
      (¬ r.holds o (scalarVal s.cur o.a) (scalarVal s.cur o.b) → v = 0) ∧
      exec (r.instr o) s = .next (s.scheduled [s.effect o.pos 1 true (.qpred o.dst.index) (v.setWidth 512)])) ∧
  (∀ r ∈ predicateRows, ∀ (o : SlotOp) (s : State) (i j : Nat), guardTrue s.cur o.g = true → o.a = .pred true i →
    o.b = .pred true j ∨ o.b = .reg 0 ∧ r.instr o = .qnot o →
    s.freeFor (s.effect o.pos 1 true (.qpred o.dst.index) 0) = true →
    exec (r.instr o) s = .next (s.scheduled [s.effect o.pos 1 true (.qpred o.dst.index)
      ((if r.holds (readQ s.cur i) (readQ s.cur j) then 1 else 0 : Word).setWidth 512)]))

/-- The scalar operations: arithmetic and logic, bit fields, compares and predicates. -/
def Obligations.ScalarOperations : Prop := Rules.ScalarArithmetic ∧ Rules.BitFields ∧ Rules.ScalarPredicates


namespace Sys2Proof.Rules

/-- The signed reading of an element of w bits (R200). -/
def sgn (w n : Nat) : Int := if n < 2 ^ (w - 1) then (n : Int) else (n : Int) - (2 ^ w : Nat)

/-- An element read signed, or unsigned where mod[0] is 1 (R57). -/
def reading (o : SlotOp) (w n : Nat) : Int := if o.mod % 2 = 1 then (n : Int) else sgn w n

/-- The signed range of w bits (R205). -/
def clamp (w : Nat) (x : Int) : Int := max (-(2 ^ (w - 1) : Nat)) (min ((2 ^ (w - 1) : Nat) - 1) x)

def etyWidth : ETy → Nat
  | .i8 => 8
  | .i16 => 16
  | .i32 => 32

def fmtOf (bf : Bool) : BinFmt := if bf then ⟨8, 7⟩ else ⟨8, 23⟩

def isSaturating (o : SlotOp) : Prop := o.mod / 2 % 2 = 1
def isUnsigned (o : SlotOp) : Prop := o.mod % 2 = 1

/-- A cluster operation into a register of its cluster: its latency, the width of the elements that an immediate fills and that the
result is said by, the operands it reads, and the result and the events of element e, from the brick and the lines of a, b and the old
destination (R203, R205 to R214). -/
structure ClusterRow where
  instr : SlotOp → Instr
  lat : Nat
  imm : Nat
  w : Nat
  reads : SlotOp → List Opd
  result : SlotOp → Brick → Line → Line → Line → Nat → Nat → Events → Prop

/-- A result of elements that raise nothing. -/
def quietly (w : Nat) (p : SlotOp → Nat → Nat → Nat → Prop) : SlotOp → Brick → Line → Line → Line → Nat → Nat → Events → Prop :=
  fun o _ a b _ e v ev => ev = .none ∧ p o (elem w a e) (elem w b e) v

/-- A result of elements with their events. -/
def floatly (w : Nat) (f : Nat → Nat → Nat → Nat × Events) : SlotOp → Brick → Line → Line → Line → Nat → Nat → Events → Prop :=
  fun _ _ a b d e v ev => (v, ev) = f (elem w a e) (elem w b e) (elem w d e)

def readsABD (o : SlotOp) : List Opd := [o.a, o.b, o.dst]

def bitByBit (f : Bool → Bool → Bool) (_ : SlotOp) (a b v : Nat) : Prop := ∀ i, i < 32 → v.testBit i = f (a.testBit i) (b.testBit i)

/-- The integer and logic operations of the X units on one element type (R205). -/
def integerRows (t : ETy) : List ClusterRow :=
  let w := etyWidth t
  [⟨.vshlT t, 2, w, w, readsAB, quietly w fun _ a b v => v = a * 2 ^ (b % w) % 2 ^ w⟩,
   ⟨.vshrT t, 2, w, w, readsAB, quietly w fun o a b v => reading o w v = reading o w a / (2 ^ (b % w) : Nat)⟩,
   ⟨.vaddT t, 2, w, w, readsAB, quietly w fun o a b v =>
     (isSaturating o → sgn w v = clamp w (sgn w a + sgn w b)) ∧ (¬ isSaturating o → v = (a + b) % 2 ^ w)⟩,
   ⟨.vsubT t, 2, w, w, readsAB, quietly w fun o a b v =>
     (isSaturating o → isUnsigned o → v = a - b) ∧ (isSaturating o → ¬ isUnsigned o → sgn w v = clamp w (sgn w a - sgn w b)) ∧
     (¬ isSaturating o → (v + b) % 2 ^ w = a)⟩,
   ⟨.vminT t, 2, w, w, readsAB, quietly w fun o a b v =>
     (v = a ∨ v = b) ∧ reading o w v ≤ reading o w a ∧ reading o w v ≤ reading o w b⟩,
   ⟨.vmaxT t, 2, w, w, readsAB, quietly w fun o a b v =>
     (v = a ∨ v = b) ∧ reading o w a ≤ reading o w v ∧ reading o w b ≤ reading o w v⟩]

/-- The operations by lanes or bytes that no element type has (R205, R206, R163). -/
def logicRows : List ClusterRow :=
  [⟨.vmov, 2, 32, 32, readsA, quietly 32 fun _ a _ v => v = a⟩,
   ⟨.vand, 2, 32, 32, readsAB, quietly 32 (bitByBit (· && ·))⟩,
   ⟨.vor, 2, 32, 32, readsAB, quietly 32 (bitByBit (· || ·))⟩,
   ⟨.vxor, 2, 32, 32, readsAB, quietly 32 (bitByBit (· != ·))⟩,
   ⟨.vandn, 2, 32, 32, readsAB, quietly 32 (bitByBit fun a b => a && !b)⟩,
   ⟨.vsel, 2, 32, 8, fun o => [o.a, o.b, .pred false (o.mod % 16)], fun o x a b _ e v ev => ev = .none ∧
     v = if (readP x (clusterOf o.pos) (o.mod % 16)).getLsbD e then elem 8 a e else elem 8 b e⟩,
   ⟨.vtap, 1, 32, 32, readsA, quietly 32 fun _ a _ v => v = a⟩]

/-- The float operations of the X units on one format (R208). -/
def floatRows (bf : Bool) : List ClusterRow :=
  let f := fmtOf bf
  let w := if bf then 16 else 32
  [⟨.vaddF bf, 2, w, w, readsAB, floatly w fun a b _ => f.add a b⟩,
   ⟨.vsubF bf, 2, w, w, readsAB, floatly w fun a b _ => f.sub a b⟩,
   ⟨.vminF bf, 2, w, w, readsAB, floatly w fun a b _ => f.minmax false a b⟩,
   ⟨.vmaxF bf, 2, w, w, readsAB, floatly w fun a b _ => f.minmax true a b⟩,
   ⟨.vabsF bf, 2, 32, w, readsA, quietly w fun _ a _ v => v = a % 2 ^ (w - 1)⟩]

/-- The element k of w bits of a lane, signed or unsigned (R209). -/
def part (o : SlotOp) (w k lane : Nat) : Int := reading o w (lane / 2 ^ (w * k) % 2 ^ w)

/-- The operations of the Y units (R209). -/
def multiplyRows : List ClusterRow :=
  [⟨.vmulF32, 4, 32, 32, readsAB, floatly 32 fun a b _ => f32.mul a b⟩,
   ⟨.vmulBf16, 4, 16, 16, readsAB, floatly 16 fun a b _ => bf16.mul a b⟩,
   ⟨.vmulF64, 6, 64, 64, readsAB, floatly 64 fun a b _ => f64.mul a b⟩,
   ⟨.vaddF64, 6, 64, 64, readsAB, floatly 64 fun a b _ => f64.add a b⟩,
   ⟨.vfmaF32, 4, 32, 32, readsABD, floatly 32 (f32.fma false)⟩,
   ⟨.vfmaBf16, 4, 16, 16, readsABD, floatly 16 (bf16.fma false)⟩,
   ⟨.vfmaF64, 6, 64, 64, readsABD, floatly 64 (f64.fma false)⟩,
   ⟨.vfmsF32, 4, 32, 32, readsABD, floatly 32 (f32.fma true)⟩,
   ⟨.vmulI32, 4, 32, 32, readsAB, quietly 32 fun _ a b v => v = a * b % 2 ^ 32⟩,
   ⟨.vmulhI32, 4, 32, 32, readsAB, quietly 32 fun o a b v =>
     reading o 32 v = reading o 32 a * reading o 32 b / (2 ^ 32 : Nat)⟩,
   ⟨.vdotI8, 4, 8, 32, readsABD, fun o _ a b d e v ev => ev = .none ∧ (v : Int) = ((elem 32 d e : Int) +
     ((List.range 4).map fun k => part o 8 k (elem 32 a e) * part o 8 k (elem 32 b e)).sum) % (2 ^ 32 : Nat)⟩,
   ⟨.vdotI16, 4, 16, 32, readsABD, fun o _ a b d e v ev => ev = .none ∧ (v : Int) = ((elem 32 d e : Int) +
     part o 16 0 (elem 32 a e) * part o 16 0 (elem 32 b e) + part o 16 1 (elem 32 a e) * part o 16 1 (elem 32 b e)) %
       (2 ^ 32 : Nat)⟩]

/-- The functions of the Z units, each by its correctly rounded element function (R213). -/
def functionRows : List ClusterRow :=
  [⟨.vrcpF32, 8, 32, 32, readsA, floatly 32 fun a _ _ => rcpF32 a⟩,
   ⟨.vrsqF32, 8, 32, 32, readsA, floatly 32 fun a _ _ => rsqF32 a⟩,
   ⟨.vexp2F32, 8, 32, 32, readsA, floatly 32 fun a _ _ => exp2F32 a⟩,
   ⟨.vlog2F32, 8, 32, 32, readsA, floatly 32 fun a _ _ => log2F32 a⟩,
   ⟨.vsqrtF32, 14, 32, 32, readsA, floatly 32 fun a _ _ => sqrtF32 a⟩,
   ⟨.vdivF32, 14, 32, 32, readsAB, floatly 32 fun a b _ => divF32 a b⟩]

/-- Byte j of a shuffle of a: zero where bit 6 of selector byte j is 1, else the byte of a that its bits [5:0] name (R210, R211). -/
def shuffled (pat a : Line) (j : Nat) : Nat := if elem 8 pat j / 64 % 2 = 1 then 0 else elem 8 a (elem 8 pat j % 64)

/-- The element e of n bytes of a shuffle. -/
def shuffledElem (n : Nat) (pat a : Line) (e : Nat) : Nat := ((List.range n).map fun i => shuffled pat a (n * e + i) * 256 ^ i).sum

/-- The pattern that mod[5:0] names, of the bank active at the issue (R211). -/
def patternAt (o : SlotOp) (x : Brick) : Line := patternOf x (o.mod % 64)

/-- The shuffles, alone and ahead of an operation (R211, R212). -/
def shuffleRows : List ClusterRow :=
  [⟨.vshuf, 2, 32, 8, readsA, fun o x a _ _ e v ev => ev = .none ∧ v = shuffled (patternAt o x) a e⟩,
   ⟨.vshaddI32, 3, 32, 32, readsAB, fun o x a b _ e v ev => ev = .none ∧
     v = (shuffledElem 4 (patternAt o x) a e + elem 32 b e) % 2 ^ 32⟩,
   ⟨.vshaddF32, 3, 32, 32, readsAB, fun o x a b _ e v ev =>
     (v, ev) = f32.add (shuffledElem 4 (patternAt o x) a e) (elem 32 b e)⟩,
   ⟨.vshmaxF32, 3, 32, 32, readsAB, fun o x a b _ e v ev =>
     (v, ev) = f32.minmax true (shuffledElem 4 (patternAt o x) a e) (elem 32 b e)⟩,
   ⟨.vshminF32, 3, 32, 32, readsAB, fun o x a b _ e v ev =>
     (v, ev) = f32.minmax false (shuffledElem 4 (patternAt o x) a e) (elem 32 b e)⟩,
   ⟨.vshaddBf16, 3, 16, 16, readsAB, fun o x a b _ e v ev =>
     (v, ev) = bf16.add (shuffledElem 2 (patternAt o x) a e) (elem 16 b e)⟩]

/-- A cluster operation into a predicate of its cluster: what the bytes of element e get, and its events (R201, R206, R208). -/
structure PredRow where
  instr : SlotOp → Instr
  w : Nat
  reads : SlotOp → List Opd
  bit : SlotOp → Brick → Line → Line → Nat → Bool → Events → Prop

def compareRows (t : ETy) : List PredRow :=
  let w := etyWidth t
  [⟨.vcmpeqT t, w, readsAB, fun _ _ a b e p ev => ev = .none ∧ (p = true ↔ elem w a e = elem w b e)⟩,
   ⟨.vcmpltT t, w, readsAB, fun o _ a b e p ev => ev = .none ∧ (p = true ↔ reading o w (elem w a e) < reading o w (elem w b e))⟩,
   ⟨.vcmpleT t, w, readsAB, fun o _ a b e p ev => ev = .none ∧ (p = true ↔ reading o w (elem w a e) ≤ reading o w (elem w b e))⟩]

def floatCompareRows (bf : Bool) : List PredRow :=
  let w := if bf then 16 else 32
  [⟨.vcmpeqF bf, w, readsAB, fun _ _ a b e p ev => (p, ev) = (fmtOf bf).cmp 0 (elem w a e) (elem w b e)⟩,
   ⟨.vcmpltF bf, w, readsAB, fun _ _ a b e p ev => (p, ev) = (fmtOf bf).cmp 1 (elem w a e) (elem w b e)⟩,
   ⟨.vcmpleF bf, w, readsAB, fun _ _ a b e p ev => (p, ev) = (fmtOf bf).cmp 2 (elem w a e) (elem w b e)⟩]

/-- Bit j of the predicate of its own cluster that a descriptor names, as it is read at issue (R182, R206). -/
def pbit (o : SlotOp) (x : Brick) (d : Opd) (j : Nat) : Bool := (readP x (clusterOf o.pos) d.index).getLsbD j

def maskRows : List PredRow :=
  [⟨.pand, 8, readsAB, fun o x _ _ j p ev => ev = .none ∧ p = (pbit o x o.a j && pbit o x o.b j)⟩,
   ⟨.por, 8, readsAB, fun o x _ _ j p ev => ev = .none ∧ p = (pbit o x o.a j || pbit o x o.b j)⟩,
   ⟨.pxor, 8, readsAB, fun o x _ _ j p ev => ev = .none ∧ p = (pbit o x o.a j != pbit o x o.b j)⟩,
   ⟨.pnot, 8, readsA, fun o x _ _ j p ev => ev = .none ∧ p = !pbit o x o.a j⟩]

/-- The events of an issue: those of the elements with an enabled byte, and a mask of the bytes that raised them (R207, R236). -/
def eventsOf (g : BitVec 64) (w : Nat) (evs : Nat → Events) (ev : Events) (mask : BitVec 64) : Prop :=
  (∀ flag ∈ [Events.inv, Events.dz, Events.ovf, Events.unf],
    (flag ev = true ↔ ∃ j, j < 64 ∧ g.getLsbD j = true ∧ flag (evs (8 * j / w)) = true)) ∧
  ∀ j, j < 64 → mask.getLsbD j = (g.getLsbD j && (evs (8 * j / w)).any)

/-- The 64 B operands of a cluster slot, an immediate in elements of w bits (R203). -/
def operand (s : State) (o : SlotOp) (w : Nat) (d : Opd) : Line := (clusterVal s.cur (clusterOf o.pos) w d).getD 0

/-- The register of its cluster that a slot's dst names (R182). -/
def vdest (s : State) (o : SlotOp) : Dest := .vreg (clusterOf o.pos) (physReg s.cur (clusterOf o.pos) o.dst.index)

/-- The predicate of its cluster that a slot's dst names (R182). -/
def pdest (s : State) (o : SlotOp) : Dest := .ppred (clusterOf o.pos) (physPred s.cur (clusterOf o.pos) o.dst.index)

/-- A row's operation has its result, in the bytes that the guard enables, and no other effect (R40, R201, R202). -/
def ClusterRow.Completes (r : ClusterRow) (o : SlotOp) (s : State) : Prop :=
  ∃ (v : Line) (evs : Nat → Events) (ev : Events) (em : BitVec 64),
    (∀ e, e < 512 / r.w → r.result o s.cur (operand s o r.imm o.a) (operand s o r.imm o.b) (readV s.cur (clusterOf o.pos) o.dst.index)
      e (elem r.w v e) (evs e)) ∧
    eventsOf (guardBits s.cur o.g) r.w evs ev em ∧
    exec (r.instr o) s = .next (s.scheduled [{ s.effect o.pos r.lat true (vdest s o) v with
      mask := guardBits s.cur o.g, ev := ev, evMask := em }])

/-- A row's operation has its predicate, and no other effect (R201, R206). -/
def PredRow.Completes (r : PredRow) (o : SlotOp) (s : State) : Prop :=
  ∃ (p : BitVec 64) (evs : Nat → Events) (ev : Events) (em : BitVec 64),
    (∀ j, j < 64 → r.bit o s.cur (operand s o r.w o.a) (operand s o r.w o.b) (8 * j / r.w) (p.getLsbD j) (evs (8 * j / r.w))) ∧
    eventsOf (guardBits s.cur o.g) r.w evs ev em ∧
    exec (r.instr o) s = .next (s.scheduled [{ s.effect o.pos 2 true (pdest s o) (p.setWidth 512) with ev := ev, evMask := em }])

/-- Every operand that a cluster operation reads is there and sound (R155, R204). -/
def sound (s : State) (o : SlotOp) (ds : List Opd) : Bool := ds.all (s.operandOk (clusterOf o.pos))

end Sys2Proof.Rules

/-- R205, R206, R163: the integer, logic, select and tap operations of the clusters. -/
def Sys2Proof.Rules.ClusterIntegers : Prop :=
  ∀ r ∈ logicRows ++ [ETy.i8, ETy.i16, ETy.i32].flatMap integerRows, ∀ (o : SlotOp) (s : State), guardBits s.cur o.g ≠ 0 →
    sound s o (r.reads o) = true → s.freeFor (s.effect o.pos r.lat true (vdest s o) 0) = true → r.Completes o s

/-- R208, R209, R213: the float, multiply and function operations of the clusters, element by element, with the events of the
enabled bytes. -/
def Obligations.ClusterFloats : Prop :=
  ∀ r ∈ [false, true].flatMap floatRows ++ multiplyRows ++ functionRows, ∀ (o : SlotOp) (s : State), guardBits s.cur o.g ≠ 0 →
    sound s o (r.reads o) = true → s.freeFor (s.effect o.pos r.lat true (vdest s o) 0) = true → r.Completes o s

/-- R206, R208: the compares and the predicate operations: each element's bit in every one of its bytes. -/
def Sys2Proof.Rules.ClusterPredicates : Prop :=
  (∀ r ∈ [ETy.i8, ETy.i16, ETy.i32].flatMap compareRows ++ [false, true].flatMap floatCompareRows, ∀ (o : SlotOp) (s : State),
    guardBits s.cur o.g ≠ 0 → sound s o (r.reads o) = true → s.freeFor (s.effect o.pos 2 true (pdest s o) 0) = true →
    r.Completes o s) ∧
  (∀ r ∈ maskRows, ∀ (o : SlotOp) (s : State) (i j : Nat), o.a = .pred false i → (o.b = .pred false j ∨ r.instr o = .pnot o) →
    guardBits s.cur o.g ≠ 0 → sound s o (r.reads o) = true → s.freeFor (s.effect o.pos 2 true (pdest s o) 0) = true →
    r.Completes o s)

/-- The cluster operations on integers, and those into predicates. That a predicate result takes the operation's bits whole under a partial
guard is the model's choice (log entry 14: R385's words against R202's merged value). -/
def Obligations.ClusterOperations : Prop := Rules.ClusterIntegers ∧ Rules.ClusterPredicates

/-- R210 to R212: shuffles by a sound pattern of the active bank, alone and fused. -/
def Obligations.Shuffles : Prop :=
  ∀ r ∈ shuffleRows, ∀ (o : SlotOp) (s : State), guardBits s.cur o.g ≠ 0 → sound s o (r.reads o) = true →
    s.cur.vec.ue.contains (8320 + s.cur.vec.activeBank * 64 + o.mod % 64) = false →
    s.freeFor (s.effect o.pos r.lat true (vdest s o) 0) = true → r.Completes o s


namespace Sys2Proof.Rules

/-- A line whose bytes are those of one line where a mask allows, and another's elsewhere (R202). -/
def Merged (m : BitVec 64) (new old v : Line) : Prop :=
  ∀ j, j < 64 → elem 8 v j = if m.getLsbD j then elem 8 new j else elem 8 old j

/-- A claim of a bundle port on a plan count (R158). -/
def portClaimed (s : State) (block at' : Nat) : State :=
  s.onCur fun x => { x with ring := { x.ring with ports := x.ring.ports ++ [(block, at')] } }

/-- A claim of a lane for a drive on a plan count (R153, R154). -/
def laneClaimed (s : State) (aw : Bool) (lane station at' : Nat) : State :=
  s.onCur fun x => { x with ring := { x.ring with lanes := x.ring.lanes ++ [⟨aw, lane, station, at', none⟩] } }

/-- No drive on a lane meets one that starts at a station on a plan count (R154). -/
def laneFree (s : State) (aw : Bool) (lane station at' : Nat) : Bool :=
  s.cur.ring.lanes.all fun u => !u.clashes aw lane station at'

/-- No access holds the bundle port of a block on a plan count, none of an operation whose guard reads false among them (R40, R158). -/
def portFree (s : State) (block at' : Nat) : Bool := !s.cur.ring.ports.contains (block, at') && !s.issue.ghosts.contains (block, at')

/-- The ring address of a scalar access of 2^size bytes: a value modulo 2^21, the bits below the size zero (R195). -/
def accessAt (v size : Nat) : Nat := v % 2 ^ 21 - v % 2 ^ size

/-- A number of the launch of the task that a brick holds; 0 where it holds none. -/
def launched (s : State) (x : Brick) (f : Task → Nat) : Nat := match x.task with | some t => f (s.task t) | none => 0

/-- The partition of the issuing brick, as the cycle began. -/
def partBegan (s : State) : Part := tget Part.reset s.partsAt (s.partOf s.issue.brick)

/-- System registers of the brick and of the package, by their fields (R115, R197, R304, R357). -/
def sysRows : List (Nat × (State → Brick → Nat)) :=
  [(0x000, fun s _ => s.tb.ct), (0x001, fun _ x => x.seq.pt), (0x002, fun _ x => x.seq.lag % 2 ^ 32),
   (0x003, fun s x => launched s x fun t => t.steptag % 2 ^ 32), (0x004, fun s _ => (tget (0 : Word) s.regsAt 0x004).toNat),
   (0x005, fun s _ => s.issue.brick % 2 ^ 10 + s.partOf s.issue.brick % 8 * 2 ^ 10), (0x006, fun _ x => x.workid.toNat),
   (0x007, fun s x => launched s x fun t => t.widths % 2 ^ 36), (0x020, fun _ x => x.seq.depth), (0x021, fun _ x => x.pollen.length),
   (0x028, fun s _ => (partBegan s).wiltStale + (partBegan s).wiltFresh * 2 ^ 32),
   (0x02C, fun s _ => (tget (0 : Word) s.regsAt 0x02C).toNat),
   (0x02D, fun s _ => let v := (tget (0 : Word) s.regsAt 0x02D).toNat
     if s.issue.brick ∈ s.overAt then v - v / 2 ^ 33 % 2 * 2 ^ 33 else v),
   (0x030, fun _ x => x.trap.recLo.toNat), (0x031, fun _ x => x.trap.recHi.toNat),
   (0x033, fun s _ => (tget (0 : Word) s.regsAt 0x033).toNat), (0x040, fun s _ => (partBegan s).htstep),
   (0x041, fun s _ => (partBegan s).htfstat.toNat), (0x042, fun s _ => (tget (0 : Word) s.regsAt 0x042).toNat),
   (0x046, fun s _ => (partBegan s).vptroot.toNat)]

/-- System registers that a brick holds as they are written (R121, R130, R145, R172, R197, R230, R250, R262, R306, R312, R357). -/
def sysKept : List Nat :=
  [0x022, 0x023, 0x024, 0x026, 0x029, 0x02A, 0x02B, 0x032, 0x043, 0x044, 0x045, 0x047, 0x048, 0x049, 0x04A, 0x04C, 0x04D, 0x04E,
   0x04F]

/-- The brick as MFSR reads it: as its cycle began, with the loop depth and the VBCFG that removed bundles have left, where no MTSR to it
lands on the cycle (R177, R197; log entry 49). -/
def asRead (s : State) : Brick :=
  let x := s.began
  match s.issue.saved with
  | none => x
  | some y =>
    { x with
      seq := { x.seq with depth := y.seq.depth }
      sys := if ∃ w ∈ y.mtsr, w.1 = 0x045 then x.sys else tput 0 x.sys 0x045 (tget 0 y.sys 0x045) }

/-- MFSR finds v in system register n: as the cycle began, for brick x (R95, R115, R119, R121, R137, R197, R304, R357). -/
def mfsrFinds (s : State) (x : Brick) (n : Nat) (v : Word) : Prop :=
  let b := s.issue.brick
  (∀ r ∈ sysRows, n = r.1 → v = BitVec.ofNat 64 (r.2 s x)) ∧
  (n ∈ sysKept → v = tget 0 x.sys n) ∧
  (n = 0x027 → v = (tfind s.normsAt b).getD (tget 0 x.sys n)) ∧
  (∀ c, c < 8 → n = 0x008 + c → v = BitVec.ofNat 64 (tget 0 x.seq.rrb c + tget 0 x.seq.prb c * 2 ^ 9)) ∧
  (∀ i, i < 16 → n = 0x010 + i → v = BitVec.ofNat 64 (launched s x fun t => (t.args.getD i 0).toNat)) ∧
  (∀ w, w < 16 → n = 0x050 + w → v = tget 0 s.mcwin (16 * (b / 24) + w)) ∧
  (∀ i, i < 64 → let e := tget Range.reset (partBegan s).ranges i
    (n = 0x100 + 4 * i → v = e.base) ∧ (n = 0x101 + 4 * i → v = e.limit) ∧ (n = 0x102 + 4 * i → v = e.offset) ∧
    (n = 0x103 + 4 * i → v = e.attr))

/-- System registers that no MTSR writes (R11, R119, R137, R197, R250, R304, R376). -/
def noWrite (n : Nat) : Bool :=
  decide (n ≤ 0x022) || [0x025, 0x028, 0x02C, 0x02E, 0x030, 0x031, 0x032, 0x033, 0x042, 0x044, 0x046, 0x04B].contains n || decide (0x050 ≤ n)

end Sys2Proof.Rules

/-- R40, R36: an operation whose guard reads false does nothing but what finds an illegal bundle: the ports that its accesses would
take are looked at, and noted for the rest of the bundle. The guard stands in bits [63:55] of the slot word. -/
def Obligations.FalseGuards : Prop :=
  ∀ (i : Instr) (p w : Nat) (s : State), i.wf = true → encodeSlot i = some (p, w) →
    guardTrue s.cur (decodeGuard (w / 2 ^ 55)) = false →
    ∃ (more : List Found) (ports : List (Nat × Nat)), (∀ f ∈ more, f.code = 0x01) ∧
      exec i s = .next { s with issue := { s.issue with found := s.issue.found ++ more, ghosts := s.issue.ghosts ++ ports } }

/-- R39, R15: what an operation of a bundle changes at its issue lies in its own brick, in the record of the issue, and in the work
that the cycle still has: no other brick, no memory of the package, no task, channel, partition or package register. -/
def Obligations.IssueTouchesOneBrick : Prop :=
  ∀ (i : Instr) (p w : Nat) (s t : State), encodeSlot i = some (p, w) → exec i s = .next t →
    (∀ b, b ≠ s.issue.brick → t.brick b = s.brick b) ∧
    t = { s with bricks := t.bricks, issue := t.issue, agenda := t.agenda, inputs := t.inputs, out := t.out, fresh := t.fresh }

/-- R195: LD reads 2^(mod[1:0]) bytes at (a + b) mod 2^21 on t+1 and lands at t+3; ST of 8 bytes writes at t+3; a narrower ST reads its
word at t+1 and writes at t+3 (R158). Ports are claimed for the accesses. -/
def Obligations.ScalarMemory : Prop :=
  (∀ (o : SlotOp) (s : State), guardTrue s.cur o.g = true → scalarUe s.cur o.a = false → scalarUe s.cur o.b = false →
    let at' := accessAt (scalarVal s.cur o.a + scalarVal s.cur o.b).toNat (o.mod % 4)
    portFree s (at' / 2 ^ 18) (s.cur.seq.clk + 1) = true →
    s.freeFor (s.effect o.pos 3 true (.sreg o.dst.index) 0) = true →
    exec (.ld o) s = .next ((portClaimed s (at' / 2 ^ 18) (s.cur.seq.clk + 1)).scheduled
      [s.effect o.pos 1 true (.readWord at' (o.mod % 4) (decide (o.mod / 4 % 2 = 1)) o.dst.index (s.cur.seq.clk + 3)) 0])) ∧
  (∀ (o : SlotOp) (s : State), guardTrue s.cur o.g = true → scalarUe s.cur o.a = false → scalarUe s.cur o.b = false →
    let at' := accessAt (scalarVal s.cur o.b).toNat (o.mod % 4)
    let now := s.cur.seq.clk
    let v : Line := (scalarVal s.cur o.a).setWidth 512
    portFree s (at' / 2 ^ 18) (now + 3) = true →
    (o.mod % 4 = 3 → exec (.st o) s = .next ((portClaimed s (at' / 2 ^ 18) (now + 3)).scheduled
      [s.effect o.pos 3 false (.ringStore at' 3) v])) ∧
    (o.mod % 4 ≠ 3 → portFree s (at' / 2 ^ 18) (now + 1) = true →
      exec (.st o) s = .next ((portClaimed (portClaimed s (at' / 2 ^ 18) (now + 1)) (at' / 2 ^ 18) (now + 3)).scheduled
        [s.effect o.pos 1 false (.readStore at' (o.mod % 4) (now + 3)) v])))

/-- R197, R198, R304, with the register tables of R95, R115, R119, R121, R137 and R357: MFSR lands the register as it stood at the
start of t, the effect of bundles removed on t in it (log entry 49), and RC fields are to clear; MTSR is due at t+1 and leaves the latch, and one to a register that it does not write is
ignored; WID lands a field of the work identifier, cut by the launch's widths. -/
def Obligations.SystemRegisters : Prop :=
  (∀ (o : SlotOp) (s : State), guardTrue s.cur o.g = true → s.freeFor (s.effect o.pos 1 true (.sreg o.dst.index) 0) = true →
    ∃ v : Word, mfsrFinds s (asRead s) o.mod v ∧
      exec (.mfsr o) s = .next
        (let t := s.scheduled [s.effect o.pos 1 true (.sreg o.dst.index) (v.setWidth 512)]
         if o.mod ∈ [0x022, 0x028, 0x032, 0x049] then { t with issue := { t.issue with clears := t.issue.clears ++ [o.mod] } } else t)) ∧
  (∀ (o : SlotOp) (s : State), guardTrue s.cur o.g = true → scalarUe s.cur o.a = false →
    let f := s.effect o.pos 1 false (.sys o.mod) ((scalarVal s.cur o.a).setWidth 512)
    s.freeFor f = true → exec (.mtsr o) s = .next (s.scheduled [f])) ∧
  (∀ (b n : Nat) (v : Word) (s : State), noWrite n = true → s.writeSys b n v = s) ∧
  (∀ (o : SlotOp) (s : State), guardTrue s.cur o.g = true → s.freeFor (s.effect o.pos 1 true (.sreg o.dst.index) 0) = true →
    ∀ t, s.cur.task = some t →
    let width (i : Nat) := (s.task t).widths / 2 ^ (6 * i) % 64
    exec (.wid o) s = .next (s.scheduled [s.effect o.pos 1 true (.sreg o.dst.index)
      ((BitVec.ofNat 64 (s.cur.workid.toNat / 2 ^ ((List.range o.mod).map width).sum % 2 ^ width o.mod)).setWidth 512)]))

namespace Sys2Proof.Rules

/-- A bit pattern of a format that is neither an infinity nor a NaN (R219). -/
def isFinite (f : BinFmt) (w : Nat) : Prop := w < 2 ^ (1 + f.eb + f.fb) ∧ w / 2 ^ f.fb % 2 ^ f.eb ≠ 2 ^ f.eb - 1

/-- The value of a finite pattern, in units of the smallest subnormal (R219). -/
def units (f : BinFmt) (w : Nat) : Int :=
  let e := w / 2 ^ f.fb % 2 ^ f.eb
  let m : Nat := if e = 0 then w % 2 ^ f.fb else (w % 2 ^ f.fb + 2 ^ f.fb) * 2 ^ (e - 1)
  if w / 2 ^ (f.eb + f.fb) % 2 = 1 then -(m : Int) else m

/-- The powers of two that the unit of a format lies below 1. -/
def unitExp (f : BinFmt) : Nat := 2 ^ (f.eb - 1) - 2 + f.fb

/-- The exact value x / q units rounds beyond the largest finite magnitude (R207). -/
def overflows (f : BinFmt) (q : Nat) (x : Int) : Prop := (2 ^ (f.fb + 2) - 1) * 2 ^ (2 ^ f.eb - 3) * q ≤ 2 * x.natAbs

/-- r is the pattern nearest to x / q units; of two that are equally near, the one whose last bit is 0 (R207). -/
def nearest (f : BinFmt) (q : Nat) (x : Int) (r : Nat) : Prop :=
  isFinite f r ∧ ∀ c, isFinite f c → (units f r * q - x).natAbs ≤ (units f c * q - x).natAbs ∧
    (units f c ≠ units f r → (units f r * q - x).natAbs = (units f c * q - x).natAbs → r % 2 = 0)

/-- The exact value x / q units, rounded once: to nearest with ties to even, or to an infinity with overflow; a zero takes the sign
given; underflow for a result that is tiny after rounding and inexact (R207). -/
def roundsOnce (f : BinFmt) (q : Nat) (x : Int) (zeroNeg : Bool) (r : Nat × Events) : Prop :=
  (x = 0 → r.1 = (if zeroNeg then 2 ^ (f.eb + f.fb) else 0)) ∧
  (x ≠ 0 → r.1 / 2 ^ (f.eb + f.fb) % 2 = (if x < 0 then 1 else 0)) ∧
  (overflows f q x → r.1 % 2 ^ (f.eb + f.fb) = (2 ^ f.eb - 1) * 2 ^ f.fb ∧ r.2 = .overflow) ∧
  (¬ overflows f q x → nearest f q x r.1 ∧ r.2.inv = false ∧ r.2.dz = false ∧ r.2.ovf = false ∧
    (r.2.unf = true → units f r.1 * q ≠ x ∧ (units f r.1).natAbs ≤ 2 ^ f.fb) ∧
    (units f r.1 * q ≠ x → (units f r.1).natAbs < 2 ^ f.fb → r.2.unf = true))

/-- The patterns of an infinity, of a NaN and of a signalling NaN, and the default NaN (R219). -/
def infOf (f : BinFmt) (neg : Bool) : Nat := (if neg then 2 ^ (f.eb + f.fb) else 0) + (2 ^ f.eb - 1) * 2 ^ f.fb
def isNanOf (f : BinFmt) (w : Nat) : Prop := w / 2 ^ f.fb % 2 ^ f.eb = 2 ^ f.eb - 1 ∧ w % 2 ^ f.fb ≠ 0
def isSignalling (f : BinFmt) (w : Nat) : Prop := isNanOf f w ∧ w % 2 ^ f.fb < 2 ^ (f.fb - 1)
def defaultNan (f : BinFmt) : Nat := (2 ^ f.eb - 1) * 2 ^ f.fb + 2 ^ (f.fb - 1)

/-- The sign bit of a pattern. -/
def isNeg (f : BinFmt) (w : Nat) : Bool := w / 2 ^ (f.eb + f.fb) % 2 == 1

/-- The exact value x / q units rounded towards zero: the largest finite magnitude not above it; overflow from twice the largest power of
two on, underflow for a result that is tiny and inexact (R207, R227). -/
def truncates (f : BinFmt) (q : Nat) (x : Int) (zeroNeg : Bool) (r : Nat × Events) : Prop :=
  (x = 0 → r = ((if zeroNeg then 2 ^ (f.eb + f.fb) else 0), .none)) ∧
  (x ≠ 0 → r.1 / 2 ^ (f.eb + f.fb) % 2 = (if x < 0 then 1 else 0)) ∧
  isFinite f r.1 ∧ (units f r.1).natAbs * q ≤ x.natAbs ∧
  (∀ c, isFinite f c → (units f c).natAbs * q ≤ x.natAbs → (units f c).natAbs ≤ (units f r.1).natAbs) ∧
  r.2.inv = false ∧ r.2.dz = false ∧ (r.2.ovf = true ↔ 2 ^ (f.fb + 2 ^ f.eb - 2) * q ≤ x.natAbs) ∧
  (r.2.unf = true ↔ (units f r.1).natAbs * q ≠ x.natAbs ∧ x.natAbs < 2 ^ f.fb * q)

/-- The binary format of a float code (R58). -/
def floatOf (c : Nat) : BinFmt := if c = 1 then bf16 else if c = 2 then f64 else f32

/-- The ends of the range of an integer code, and the number that its element names (R224). -/
def intLow (c : Nat) : Int := if c ≤ 7 then -(2 ^ (fmtWidth c - 1)) else 0
def intHigh (c : Nat) : Int := if c ≤ 7 then 2 ^ (fmtWidth c - 1) - 1 else 2 ^ fmtWidth c - 1
def intOf (c x : Nat) : Int := if (x : Int) ≤ intHigh c then x else x - 2 ^ fmtWidth c

/-- The magnitudes of E2M1, in halves (R222). -/
def e2m1Halves (c : Nat) : Nat := [0, 1, 2, 3, 4, 6, 8, 12].getD c 0

/-- An element names a number; the number is sourceNum / 2 ^ sourceExp, and its zero has a sign (R219 to R224). -/
def isNumber (c x : Nat) : Prop := (fmtIsFloat c = true → isFinite (floatOf c) x) ∧ (c = 3 → x % 64 ≠ 32) ∧ (c = 11 → x ≠ 255)
def sourceNum (c x : Nat) : Int :=
  if fmtIsFloat c then units (floatOf c) x
  else if fmtIsInt c then intOf c x
  else if c = 3 then
    let m : Nat := if x % 32 = 0 then 0
      else (units f32 ([0x3F800000, 0x3F9837F0, 0x3FB504F3, 0x3FD744FD].getD (x % 4) 0)).toNat * 2 ^ (x % 32 / 4)
    if x / 32 % 2 = 1 then -(m : Int) else m
  else if c = 4 then (if x / 8 % 2 = 1 then -(e2m1Halves (x % 8) : Int) else e2m1Halves (x % 8))
  else 2 ^ x
def sourceExp (c : Nat) : Nat :=
  if fmtIsFloat c then unitExp (floatOf c) else if fmtIsInt c then 0 else if c = 3 then 153 else if c = 4 then 1 else 127
def sourceNeg (c x : Nat) : Bool := (fmtIsFloat c && isNeg (floatOf c) x) || (c == 4 && x / 8 % 2 == 1)

/-- R227: the number n / q in an integer type: rounded, ties to even, or towards zero, and saturated, which is invalid from a float. -/
def toInteger (fd : Nat) (rz fromFloat : Bool) (n : Int) (q : Nat) (r : Nat × Events) : Prop :=
  ∃ k : Int,
    (rz = false → 2 * (n - k * q).natAbs ≤ q ∧ (2 * (n - k * q).natAbs = q → k % 2 = 0)) ∧
    (rz = true → (k * q).natAbs ≤ n.natAbs ∧ (n - k * q).natAbs < q ∧ 0 ≤ k * n) ∧
    r = ((min (intHigh fd) (max (intLow fd) k) % 2 ^ fmtWidth fd).toNat,
      if fromFloat && decide (k < intLow fd ∨ intHigh fd < k) then .invalid else .none)

/-- R227: the number n / q in LNS6: e is 4 log2 |x| + 16 to the nearest or its floor, the sign is that of x; e below 1 and above 31. -/
def toLogs (rz : Bool) (n : Int) (q : Nat) (r : Nat × Events) : Prop :=
  let a := n.natAbs
  let sign := if n < 0 then 32 else 0
  (n = 0 → r = (0, .none)) ∧
  (n ≠ 0 →
    ((if rz then a ^ 4 * 2 ^ 15 < q ^ 4 else a ^ 8 * 2 ^ 31 < q ^ 8) → r = (0, .underflow)) ∧
    ((if rz then 2 ^ 16 * q ^ 4 ≤ a ^ 4 else 2 ^ 31 * q ^ 8 ≤ a ^ 8) → r = (31 + sign, .overflow)) ∧
    ∀ e, 1 ≤ e → e ≤ 31 →
      (if rz then 2 ^ e * q ^ 4 ≤ a ^ 4 * 2 ^ 16 ∧ a ^ 4 * 2 ^ 15 < 2 ^ e * q ^ 4
        else 2 ^ (2 * e) * q ^ 8 ≤ a ^ 8 * 2 ^ 33 ∧ a ^ 8 * 2 ^ 31 < 2 ^ (2 * e) * q ^ 8) → r = (e + sign, .none))

/-- R222, R227: the number n / q in E2M1: above 6, else on the grid, where the neighbour whose last bit is 0 takes a tie. -/
def toE2m1Grid (rz neg : Bool) (n : Int) (q : Nat) (r : Nat × Events) : Prop :=
  let a := n.natAbs
  let sign := if neg then 8 else 0
  (6 * q < a → r = (7 + sign, .overflow)) ∧
  (a ≤ 6 * q → ∃ c, c < 8 ∧
    (rz = false → ∀ d, d < 8 → let off := fun i : Nat => ((2 * a : Int) - e2m1Halves i * q).natAbs
      off c ≤ off d ∧ (d ≠ c → off c = off d → c % 2 = 0)) ∧
    (rz = true → e2m1Halves c * q ≤ 2 * a ∧ ∀ d, d < 8 → e2m1Halves d * q ≤ 2 * a → d ≤ c) ∧
    r = (c + sign, if c < 2 ∧ e2m1Halves c * q ≠ 2 * a then .underflow else .none))

/-- R227: every admitted conversion of one element, of a number, an infinity or a NaN. -/
def ConversionValues : Prop :=
  ∀ (fs fd : Nat) (rz : Bool) (x : Nat), vcvtPair fs fd = true → x < 2 ^ fmtWidth fs →
    let r := convert fs fd rz x
    let n := sourceNum fs x
    let q := 2 ^ sourceExp fs
    let g := floatOf fd
    (isNumber fs x →
      (fmtIsFloat fd = true → rz = false → roundsOnce g q (n * 2 ^ unitExp g) (sourceNeg fs x) r) ∧
      (fmtIsFloat fd = true → rz = true → truncates g q (n * 2 ^ unitExp g) (sourceNeg fs x) r) ∧
      (fmtIsInt fd = true → toInteger fd rz (fmtIsFloat fs) n q r) ∧
      (fd = 3 → toLogs rz n q r) ∧ (fd = 4 → toE2m1Grid rz (sourceNeg fs x) n q r) ∧
      (fd = 11 → (n = 0 → r = (0, .none)) ∧ (n ≠ 0 → r.2 = .none ∧ r.1 ≤ 254 ∧
        (2 ^ (r.1 + 22) ≤ n.natAbs ∨ r.1 = 0) ∧ n.natAbs < 2 ^ (r.1 + 23)))) ∧
    (∀ neg, fmtIsFloat fs = true → x = infOf (floatOf fs) neg →
      (fmtIsFloat fd = true → r = (infOf g neg, .none)) ∧
      (fmtIsInt fd = true → r = (((if neg then intLow fd else intHigh fd) % 2 ^ fmtWidth fd).toNat, .invalid)) ∧
      (fd = 3 → r = (31 + (if neg then 32 else 0), .overflow)) ∧ (fd = 4 → r = (7 + (if neg then 8 else 0), .overflow)) ∧
      (fd = 11 → r = (0xFE, .overflow))) ∧
    ((fmtIsFloat fs = true ∧ isNanOf (floatOf fs) x) ∨ (fs = 3 ∧ x % 64 = 32) ∨ (fs = 11 ∧ x = 255) →
      (fmtIsFloat fd = true → r = (defaultNan g, ⟨r.2.inv, false, false, false⟩) ∧
        (r.2.inv = true ↔ fmtIsFloat fs = true ∧ isSignalling (floatOf fs) x)) ∧
      (fmtIsInt fd = true → r = (0, .invalid)) ∧ (fd = 3 → r = (0x20, .invalid)) ∧ (fd = 4 → r = (0, .invalid)) ∧
      (fd = 11 → r = (0xFF, .invalid)))

end Sys2Proof.Rules

/-- R226: VCVT converts one part of its wider side: element by element into the bytes of that part that the guard enables, the
others staying. The formats are those that the codes resolve to; the part is one that they have. The events are those of the elements with
an enabled byte, and no other. -/
def Sys2Proof.Rules.PartsConvert : Prop :=
  ∀ (o : SlotOp) (s : State), guardBits s.cur o.g ≠ 0 → sound s o [o.a] = true →
    s.freeFor (s.effect o.pos 2 true (vdest s o) 0) = true →
    let fs := resolveFmt s.cur (o.mod % 16)
    let fd := resolveFmt s.cur (o.mod / 16 % 16)
    let m := 512 / max (fmtWidth fs) (fmtWidth fd)
    let p := o.b.index
    let first := if fmtWidth fd < fmtWidth fs then p * m else 0
    let x := fun i : Nat => elem (fmtWidth fs) (operand s o 32 o.a) (if fmtWidth fd < fmtWidth fs then i else p * m + i)
    let r := fun i : Nat => if fs = fd then (x i, Events.none) else convert fs fd (decide (o.mod / 256 = 1)) (x i)
    let raised := fun e : Nat => (r (e - first)).2
    fmtWidth fs ≠ 0 → fmtWidth fd ≠ 0 → (fs = fd ∨ vcvtPair fs fd = true) → p < fmtRatio fs fd → (fd = 11 → o.mod / 256 = 0) →
    ∃ (v : Line) (ev : Events) (em k : BitVec 64),
      (∀ i, i < m → elem (fmtWidth fd) v (first + i) = (r i).1 % 2 ^ fmtWidth fd) ∧
      (∀ j, j < 64 → k.getLsbD j =
        ((guardBits s.cur o.g).getLsbD j && decide (fmtWidth fd * first ≤ 8 * j ∧ 8 * j < fmtWidth fd * (first + m)))) ∧
      eventsOf k 8 (fun j => if fmtWidth fd < 8 then (raised (2 * j)).or (raised (2 * j + 1)) else raised (8 * j / fmtWidth fd)) ev em ∧
      exec (.vcvt o) s = .next (s.scheduled [{ s.effect o.pos 2 true (vdest s o) v with mask := k, ev := ev, evMask := em }])

/-- R226, R227: VCVT converts one part, each element to the value of its destination format, with the events of the enabled ones. -/
def Obligations.ConvertsOnePart : Prop := Rules.PartsConvert ∧ Rules.ConversionValues

/-- R211, R214, R164: VHBLD loads the bank inactive at t, VHBSWAP changes the banks from t+1, VXC copies into another cluster after
3 cycles and the ring distance, VPUT drives the guarded bytes onto a lane at its station. -/
def Obligations.ClusterTransfers : Prop :=
  (∀ (o : SlotOp) (s : State), guardBits s.cur o.g ≠ 0 → sound s o [o.a] = true →
    let d := Dest.pattern (1 - s.cur.vec.activeBank) (o.mod % 64)
    s.freeFor (s.effect o.pos 2 false d 0) = true →
    exec (.vhbld o) s = .next (s.scheduled [{ s.effect o.pos 2 false d (operand s o 32 o.a) with mask := guardBits s.cur o.g }])) ∧
  (∀ (o : SlotOp) (s : State), guardTrue s.cur o.g = true → s.freeFor (s.effect o.pos 1 false .bankSwap 0) = true →
    exec (.vhbswap o) s = .next (s.scheduled [s.effect o.pos 1 false .bankSwap 0])) ∧
  (∀ (o : SlotOp) (s : State), guardBits s.cur o.g ≠ 0 → sound s o [o.a] = true → clusterOf o.pos < 8 → o.mod < 8 →
    let apart := max (clusterOf o.pos) o.mod - min (clusterOf o.pos) o.mod
    let lat := 3 + [0, 2, 4, 6, 8, 10, 8, 6].getD apart 0
    let d := Dest.vreg o.mod (physReg s.cur o.mod o.dst.index)
    s.freeFor (s.effect o.pos lat false d 0) = true →
    exec (.vxc o) s = .next (s.scheduled [{ s.effect o.pos lat false d (operand s o 32 o.a) with mask := guardBits s.cur o.g }])) ∧
  (∀ (o : SlotOp) (s : State), guardBits s.cur o.g ≠ 0 → sound s o [o.a] = true →
    let aw := decide (o.mod / 16 % 2 = 1)
    let st := 2 * clusterOf o.pos + 1
    laneFree s aw (o.mod % 16) st (s.cur.seq.clk + 1) = true →
    ∃ v, Merged (guardBits s.cur o.g) (operand s o 32 o.a) 0 v ∧
      exec (.vput o) s = .next ((laneClaimed s aw (o.mod % 16) st (s.cur.seq.clk + 1)).scheduled
        [s.effect o.pos 1 false (.drive aw (o.mod % 16) st) v]))


namespace Sys2Proof.Rules

/-- The bundle's ctl sends the program counter to an offset. -/
def jumped (s : State) (t : Nat) : State := { s with issue := { s.issue with jump := some t } }

/-- The offset of the bundle after the one that issues: one header word and one word for each bit of SMASK (R29). -/
def after (s : State) : Nat := nextBundle s.cur s.issue.pc

/-- The issuing brick with its sequencer changed. -/
def onSeq (s : State) (f : Seq → Seq) : State := s.onCur fun x => { x with seq := f x.seq }

/-- Bits [lo + n - 1 : lo] of a number. -/
def field (v lo n : Nat) : Nat := v / 2 ^ lo % 2 ^ n

end Sys2Proof.Rules

/-- R178, R180: B goes to the bundle's offset and a signed distance, BR to a register's offset, CALL to a distance in units of 8 bytes
with the next bundle's offset into sL at t+1. -/
def Obligations.Transfers : Prop :=
  (∀ (o : CtlOp) (s : State), guardTrue s.cur o.g = true → 0 ≤ (s.issue.pc : Int) + sgn 34 (o.imm % 2 ^ 34) →
    exec (.branch o) s = .next (jumped s ((s.issue.pc : Int) + sgn 34 (o.imm % 2 ^ 34)).toNat)) ∧
  (∀ (o : CtlOp) (s : State), guardTrue s.cur o.g = true → scalarUe s.cur o.a = false →
    (scalarVal s.cur o.a).toNat < 2 ^ 34 → (scalarVal s.cur o.a).toNat % 8 = 0 →
    exec (.branchReg o) s = .next (jumped s (scalarVal s.cur o.a).toNat)) ∧
  (∀ (o : CtlOp) (s : State), guardTrue s.cur o.g = true →
    s.freeFor (s.effect 0 1 false (.sreg (o.imm % 64)) 0) = true → 0 ≤ (s.issue.pc : Int) + 8 * sgn 28 (field o.imm 6 28) →
    exec (.call o) s = .next (jumped (s.scheduled [s.effect 0 1 false (.sreg (o.imm % 64)) (BitVec.ofNat 512 (after s))])
      ((s.issue.pc : Int) + 8 * sgn 28 (field o.imm 6 28)).toNat)) ∧
  (∀ (b : Nat) (u : Bundle) (s : State) (w : Nat) (o : CtlOp), u.word 0 = some w → w ≠ 0 →
    decodeSlot 0 w ∈ [some (Instr.branch o), some (.branchReg o), some (.call o), some (.loop o)] → 0 < (s.brick b).seq.depth →
    (loopLevel (s.brick b) ((s.brick b).seq.depth - 1)).fin = u.pc →
    ∃ t : State, s.issueBundle b u = t ∧ (∃ f ∈ t.issue.found, f.code = 0x01 ∧ f.slot = 0) ∧ t.agenda = .commit :: s.agenda)

/-- R176, R179: LOOP pushes a level or, at a count of 0, goes past END; LBRK leaves n levels and goes on as though the bundle at the
outermost one's END had completed. -/
def Sys2Proof.Rules.LoopEntryAndExit : Prop :=
  (∀ (o : CtlOp) (s : State), guardTrue s.cur o.g = true → scalarUe s.cur o.a = false →
    let c := (scalarVal s.cur o.a).toNat
    let d := s.cur.seq.depth
    let fin := s.issue.pc + 8 * field o.imm 0 13
    d ≠ 6 → field o.imm 21 6 ≤ c → c ≤ 2 ^ field o.imm 27 5 → (d = 0 ∨ fin ≤ (loopLevel s.cur (d - 1)).fin) →
    (c = 0 → exec (.loop o) s = .next (jumped s (nextBundle s.cur fin))) ∧
    (c ≠ 0 → ∃ t, exec (.loop o) s = .next (jumped t (after s)) ∧ t = onSeq s (fun q => { q with depth := d + 1, loops := t.cur.seq.loops }) ∧
      loopLevel t.cur d = { idx := 0, rem := c, step := sgn 8 (field o.imm 13 8), start := after s, fin := fin } ∧
      ∀ l, l ≠ d → loopLevel t.cur l = loopLevel s.cur l)) ∧
  (∀ (o : CtlOp) (s : State), guardTrue s.cur o.g = true → o.imm ≤ s.cur.seq.depth →
    exec (.lbrk o) s = .next (let t := onSeq s fun q => { q with depth := s.cur.seq.depth - o.imm }
      { t with issue := { t.issue with leave := some (loopLevel s.cur (s.cur.seq.depth - o.imm)).fin } }))

/-- R177: a bundle that completes away from the top level's END, or with no level, goes on to the next; at END with trips left the
level takes its step, the base of the versions moves where its level is that one, and the program counter returns to START; at
END on the last trip the level is left and the outer one is looked at. -/
def Sys2Proof.Rules.BackEdge : Prop :=
  ∀ (x : Brick) (pc : Nat),
    let d := x.seq.depth
    let l := loopLevel x (d - 1)
    let cfg := (sysGet x 0x045).toNat
    ((d = 0 ∨ l.fin ≠ pc) → completeAt x pc = { x with seq := { x.seq with pc := nextBundle x pc } }) ∧
    (0 < d → l.fin = pc → 1 < l.rem → ∃ y, completeAt x pc = y ∧
      y.seq.pc = l.start ∧ y.seq.depth = d ∧
      loopLevel y (d - 1) = { l with rem := l.rem - 1, idx := (((l.idx : Int) + l.step) % (2 ^ 64 : Nat)).toNat } ∧
      (∀ k, k ≠ d - 1 → loopLevel y k = loopLevel x k) ∧
      (field cfg 5 3 = d - 1 → (∀ w ∈ x.mtsr, w.1 ≠ 0x045) →
        (sysGet y 0x045).toNat + 2 ^ 8 * field cfg 8 5 = cfg + 2 ^ 8 * ((field cfg 8 5 + 1) % (field cfg 0 5 + 1))) ∧
      ((field cfg 5 3 ≠ d - 1 ∨ ∃ w ∈ x.mtsr, w.1 = 0x045) → y.sys = x.sys) ∧ (∀ n, n ≠ 0x045 → sysGet y n = sysGet x n) ∧
      y = { x with seq := { x.seq with pc := y.seq.pc, loops := y.seq.loops }, sys := y.sys }) ∧
    (0 < d → l.fin = pc → l.rem ≤ 1 → completeAt x pc = completeAt { x with seq := { x.seq with depth := d - 1 } } pc)

/-- Loops: entry, exit and the back edge. -/
def Obligations.Loops : Prop := Rules.LoopEntryAndExit ∧ Rules.BackEdge

/-- R181 to R183: SETSTEP gives a slot its steps; ROT moves the bases of its clusters and writes the q predicate into the new p8 at
t+1; ROTSET sets the bases. Registers and predicates of every other cluster keep their bases. -/
def Obligations.StepsAndRotation : Prop :=
  (∀ (o : CtlOp) (s : State), guardTrue s.cur o.g = true → ∃ t, exec (.setstep o) s = .next t ∧
    t = onSeq s (fun q => { q with steps := t.cur.seq.steps }) ∧
    (∀ p, stepsOf t.cur p = if p = field o.imm 0 6
      then ⟨sgn 8 (field o.imm 6 8), sgn 8 (field o.imm 14 8), sgn 8 (field o.imm 22 8)⟩ else stepsOf s.cur p)) ∧
  (∀ (o : CtlOp) (s : State), guardTrue s.cur o.g = true →
    let base (c : Nat) := (tget 0 s.cur.seq.prb c + 7) % 8
    let sets := decide (field o.imm 17 1 = 1)
    let v : Line := if scalarVal s.cur o.a = 1 then (BitVec.allOnes 64).setWidth 512 else 0
    let cs := (List.range 8).filter fun c => o.imm.testBit c
    let fs := if sets then cs.map fun c => s.effect 0 1 false (.ppred c (8 + base c)) v else []
    fs.all s.freeFor = true →
    ∃ t, exec (.rot o) s = .next t ∧
      t = (onSeq s fun q => { q with rrb := t.cur.seq.rrb, prb := t.cur.seq.prb }).scheduled fs ∧
      ∀ c, tget 0 t.cur.seq.rrb c = (if c ∈ cs then (tget 0 s.cur.seq.rrb c + 512 - field o.imm 8 9) % 512 else tget 0 s.cur.seq.rrb c) ∧
        tget 0 t.cur.seq.prb c = (if c ∈ cs ∧ sets = true then base c else tget 0 s.cur.seq.prb c)) ∧
  (∀ (o : CtlOp) (s : State), guardTrue s.cur o.g = true →
    let cs := (List.range 8).filter fun c => o.imm.testBit c
    let fs := if field o.imm 20 1 = 1 then cs.flatMap fun c => (List.range 8).map fun j => s.effect 0 1 false (.ppred c (8 + j)) 0 else []
    fs.all s.freeFor = true →
    ∃ t, exec (.rotset o) s = .next t ∧
      t = (onSeq s fun q => { q with rrb := t.cur.seq.rrb, prb := t.cur.seq.prb }).scheduled fs ∧
      ∀ c, tget 0 t.cur.seq.rrb c = (if c ∈ cs then field o.imm 8 9 else tget 0 s.cur.seq.rrb c) ∧
        tget 0 t.cur.seq.prb c = (if c ∈ cs then field o.imm 17 3 else tget 0 s.cur.seq.prb c))

/-- R184 to R189: the ctl words that end a region, withhold cycles, trap, read pollen, or end the task, each with its one effect. (That
the record of a TRAP holds the PC of the bundle that held it is the model's reading: log entry 69.) -/
def Obligations.RegionsAndEnds : Prop :=
  (∀ (o : CtlOp) (s : State), exec (.settle o) s = .next (onSeq s fun q => { q with origin := s.tb.ct, opening := false })) ∧
  (∀ (o : CtlOp) (s : State), exec (.yield o) s = .next (s.onCur fun x =>
    { x with seq := { x.seq with opening := true }, frz := { x.frz with yielded := some o.imm } })) ∧
  (∀ (o : CtlOp) (s : State), guardTrue s.cur o.g = true →
    let k := min (o.imm : Int) (max 0 (s.tb.phi / 16))
    exec (.drift o) s = .next (if k = 0 then s
      else s.onCur fun x => { x with frz := { x.frz with driftUntil := s.tb.ct + k.toNat } })) ∧
  (∀ (o : CtlOp) (s : State), guardTrue s.cur o.g = true →
    exec (.trap o) s = .next (s.onCur fun x =>
      { x with trap := { x.trap with found := x.trap.found ++ [{ code := 0x0F, slot := 0, late := false, replay := false, pc := s.issue.pc, issue := s.issue.issue, cycle := s.tb.ct, tcode := o.imm, regs := [], notice := false }] } })) ∧
  (∀ (o : CtlOp) (s : State), guardTrue s.cur o.g = true →
    let r := (s.cur.pollen.headD 0).toNat
    let fs := [s.effect 0 2 false (.sreg o.a.index) (BitVec.ofNat 512 (r % 2 ^ 64)),
      s.effect 0 2 false (.sreg (o.a.index + 1)) (BitVec.ofNat 512 (r / 2 ^ 64))]
    fs.all s.freeFor = true →
    exec (.ppop o) s = .next ((s.onCur fun x => { x with pollen := x.pollen.tail }).scheduled fs)) ∧
  (∀ (o : CtlOp) (s : State), guardTrue s.cur o.g = true → exec (.endTask o) s = .next (onSeq s fun q => { q with ended := true }))


namespace Sys2Proof.Rules

/-- The blocks of a mask, lowest first (R161). -/
def blocksOf (mask : Nat) : List Nat := (List.range 8).filter fun j => mask.testBit j

/-- Claims of the ports of some blocks on one plan count. -/
def portsClaimed (s : State) (blocks : List Nat) (at' : Nat) : State :=
  s.onCur fun x => { x with ring := { x.ring with ports := x.ring.ports ++ blocks.map fun k => (k, at') } }

/-- The line that a ring word names: the base's value and the line field modulo 4,096 (R160). -/
def lineOf (s : State) (o : RingOp) : Nat := ((scalarVal s.cur o.base).toNat + o.line) % 4096

/-- The granule of that line (R160): 64 granules of 64 lines in each block. -/
def granule (s : State) (o : RingOp) : Nat := 64 * blockOf o.pos + lineOf s o / 64

/-- The interval of a product in each format, FP32, BF16, FP64, LNS6; its latency is 12 more (R69). -/
def interval (fmt : Nat) : Nat := [256, 64, 1024, 16].getD fmt 0

/-- None of some tiles or slots has a window of these kinds open (R249). -/
def idle (x : Brick) (kinds : List Nat) (is : List Nat) : Bool := is.all fun i => !busy x kinds i

/-- The matrix engine of the issuing brick changes. -/
def onMx (s : State) (f : Matrix → Matrix) : State := s.onCur fun x => { x with mx := f x.mx }

/-- Windows of n cycles from now (R249). -/
def windowsFrom (s : State) (kind : Nat) (is : List Nat) (n : Nat) : List Window :=
  is.map fun i => ⟨kind, i, s.cur.seq.clk + n - 1⟩

/-- The pair of operands k of output element (i, j): A·B, Aᵀ·B or A·Bᵀ (R245). -/
def operandPair (fmt form na nb i j k : Nat) : Nat × Nat :=
  (if form = 1 then tileElem fmt na k i k i else tileElem fmt na i k k i,
   if form = 2 then tileElem fmt nb j k k j else tileElem fmt nb k j k j)

/-- The accumulator after group g: its value before and the exact sum of the group's four products, rounded once (R231). -/
def groupStep (fmt form na nb i j g before : Nat) : Nat :=
  let p (c : Nat) := mxProduct fmt (operandPair fmt form na nb i j (4 * g + c)).1 (operandPair fmt form na nb i j (4 * g + c)).2
  let r := sumVals [(accFmt fmt).unpack before, (sumVals [p 0, p 1, p 2, p 3]).1]
  ((accFmt fmt).pack false r.1 r.2).1

/-- Element (i, j) of an accumulator's words. -/
def accAt (fmt : Nat) (ws : List (BitVec 32)) (i j : Nat) : Nat := (accElems fmt ws).getD (64 * i + j) 0

/-- The words that an array operation starts from: its chain predecessor's, the tile's, or zeros (R245, R246). -/
def startWords (s : State) (fmt dst : Nat) (accum : Bool) : List (BitVec 32) :=
  match chainOf s.cur dst fmt accum with
  | some g => g.words
  | none => if accum then (accTiles fmt dst).flatMap (tileWords s.cur) else List.replicate (4096 * (accTiles fmt dst).length) 0

/-- A predecessor in the chain is poisoned, or the tile that an accumulating operation reads is (R252). -/
def startPoisoned (s : State) (fmt dst : Nat) (accum : Bool) : Bool :=
  accum && match chainOf s.cur dst fmt accum with
    | some g => g.poison
    | none => accPoisoned s.cur (accTiles fmt dst)

end Sys2Proof.Rules

/-- R158 to R161: MRD and MRDT read their line on t+1 for a drive at station 2k on t+3; MWR and MWRM write the line they tap on t+3;
MSTAG sets a tag at t+1. MRDT wants the granule's tag in its register: any other, and 0xFFFF, is a tag mismatch, fault 0x02 (R128, R129). -/
def Obligations.RingAccesses : Prop :=
  (∀ (o : RingOp) (s : State), guardTrue s.cur o.g = true → scalarUe s.cur o.base = false →
    let k := blockOf o.pos
    let now := s.cur.seq.clk
    portFree s k (now + 1) = true → laneFree s o.aw o.lane (2 * k) (now + 3) = true →
    let t := (laneClaimed (portClaimed s k (now + 1)) o.aw o.lane (2 * k) (now + 3)).scheduled
      [s.effect o.pos 1 false (.readLine o.aw o.lane (2 * k) k (lineOf s o) (now + 3)) 0]
    exec (.mrd o) s = .next t ∧
    (tagOf s.cur (granule s o) = tagOperand s.cur (o.mod % 64) → tagOf s.cur (granule s o) ≠ 0xFFFF → exec (.mrdt o) s = .next t)) ∧
  (∀ (o : RingOp) (s : State), guardTrue s.cur o.g = true →
    (tagOf s.cur (granule s o) ≠ tagOperand s.cur (o.mod % 64) ∨ tagOf s.cur (granule s o) = 0xFFFF) →
    ∃ t, exec (.mrdt o) s = .next t ∧ ∃ f ∈ t.issue.found, f.code = 0x02 ∧ f.slot = o.pos) ∧
  (∀ (o : RingOp) (s : State) (d : Line), guardTrue s.cur o.g = true → scalarUe s.cur o.base = false →
    tap s.cur o.aw o.lane (2 * blockOf o.pos) = some d →
    let at' := s.cur.seq.clk + 3
    (portFree s (blockOf o.pos) at' = true → blockOf o.pos < 8 → exec (.mwr o) s = .next ((portClaimed s (blockOf o.pos) at').scheduled
      [s.effect o.pos 3 false (.ringLine (2 ^ blockOf o.pos) (lineOf s o)) d])) ∧
    ((blocksOf o.mod).all (fun j => portFree s j at') = true → exec (.mwrm o) s = .next ((portsClaimed s (blocksOf o.mod) at').scheduled
      [s.effect o.pos 3 false (.ringLine (o.mod % 256) (lineOf s o)) d]))) ∧
  (∀ (o : RingOp) (s : State), guardTrue s.cur o.g = true → scalarUe s.cur o.base = false → scalarUe s.cur (.reg (o.mod % 64)) = false →
    exec (.mstag o) s = .next (s.scheduled [s.effect o.pos 1 false (.tag (granule s o)) ((tagOperand s.cur (o.mod % 64)).setWidth 512)]))

/-- R231, R244 to R246, R249, R252: a product of two claimed groups into a tile that nothing holds is due its latency later. Each
element is the start value and sixteen sums of four products, each rounded once; poison makes every word 0xFFC0_0BAD. -/
def Obligations.ArrayProducts : Prop :=
  ∀ (o : SlotOp) (s : State), ∀ q ∈ [(Instr.mma o, 1, 0), (Instr.mmat o, 2, if o.mod.testBit 5 then 2 else 1)],
    guardTrue s.cur o.g = true → s.cur.mx.arrayFree ≤ s.cur.seq.clk →
    let fmt := resolveFmt s.cur (o.mod % 16)
    let dst := o.dst.index
    let accum := o.mod.testBit 4
    let pred := chainOf s.cur dst fmt accum
    let tiles := accTiles fmt dst
    let groups := omSlots fmt o.a.index ++ omSlots fmt o.b.index
    fmt < 4 → mxFormatFault (o.mod % 16) fmt [o.a.index, o.b.index] dst = false →
    idle s.cur (if pred.isSome then [1, 2] else [0, 1, 2]) tiles = true → idle s.cur [4] groups = true →
    groups.all s.cur.mx.claim.contains = true →
    ∃ f : MxFlight, f.due = s.cur.seq.clk + interval fmt + 12 ∧ f.opc = q.2.1 ∧ f.dst = dst ∧ f.fmt = fmt ∧ f.superseded = false ∧
      f.pc = s.issue.pc ∧ f.issue = s.issue.issue ∧
      f.poison = (omPoisoned s.cur groups || startPoisoned s fmt dst accum) ∧
      (f.poison = true → f.words = List.replicate (4096 * tiles.length) 0xFFC00BAD ∧ f.ev = .none) ∧
      (f.poison = false → ∀ i j, i < 64 → j < 64 → ∃ at' : Nat → Nat, at' 0 = accAt fmt (startWords s fmt dst accum) i j ∧
        (∀ g, g < 16 → at' (g + 1) =
          groupStep fmt q.2.2 (groupNat s.cur fmt o.a.index) (groupNat s.cur fmt o.b.index) i j g (at' g)) ∧
        ((startWords s fmt dst accum).length = 4096 * tiles.length → accAt fmt f.words i j = at' 16 % 2 ^ (if fmt = 2 then 64 else 32))) ∧
      exec q.1 s = .next (onMx s fun m => { m with
        flights := (m.flights.map fun g => if pred = some g then { g with superseded := true } else g) ++ [f]
        last := some (q.2.1, dst, fmt, f.due)
        arrayFree := s.cur.seq.clk + interval fmt
        windows := m.windows ++ windowsFrom s 0 tiles (interval fmt + 12) ++ windowsFrom s 3 groups (interval fmt) })

/-- R248, R249, R252: MDRAIN converts a tile, turned where mod[4] is 1, for a group that it fills 70 cycles later. -/
def Obligations.DrainsConvert : Prop :=
  ∀ (o : SlotOp) (s : State), guardTrue s.cur o.g = true → s.cur.mx.arrayFree ≤ s.cur.seq.clk →
    let fmt := resolveFmt s.cur (o.mod % 16)
    let src := o.a.index
    let dst := o.dst.index
    let tiles := accTiles fmt src
    let slots := omSlots fmt dst
    let w := fmtWidth fmt
    fmt < 4 → mxFormatFault (o.mod % 16) fmt [dst] src = false →
    idle s.cur [0, 1, 2] tiles = true → idle s.cur [3, 4] slots = true → slots.all s.cur.mx.claim.contains = true →
    ∃ f : MxFlight, f.due = s.cur.seq.clk + 70 ∧ f.opc = 4 ∧ f.dst = dst ∧ f.fmt = fmt ∧ f.lane = src ∧ f.superseded = false ∧
      f.pc = s.issue.pc ∧ f.issue = s.issue.issue ∧
      f.poison = accPoisoned s.cur tiles ∧
      (f.poison = true → f.lines.length = 128 * slots.length ∧ ∀ i l, i < 16 → l ∈ f.lines → elem 32 l i = 0xFFC00BAD) ∧
      (f.poison = false → (∀ r c, r < 64 → c < 64 →
        let v := accAt fmt (tiles.flatMap (tileWords s.cur)) (if o.mod.testBit 4 then c else r) (if o.mod.testBit 4 then r else c)
        let n := 64 * r + c
        elem w (f.lines.getD (n / (512 / w)) 0) (n % (512 / w)) =
          (if fmt = 0 then v else (convert (if fmt = 2 then 2 else 0) fmt false v).1) % 2 ^ w) ∧
        (fmt = 3 → ∀ k, k < 4096 → elem 8 (f.lines.getD (64 + k / 64) 0) (k % 64) = if k < 128 then 0x7F else 0)) ∧
      exec (.mdrain o) s = .next (onMx s fun m => { m with
        flights := m.flights ++ [f]
        last := some (4, dst, fmt, f.due)
        arrayFree := s.cur.seq.clk + 64
        windows := m.windows ++ windowsFrom s 1 tiles 64 ++ windowsFrom s 4 slots 70 })

/-- R239, R240, R247, R249: claims, releases and zeroing are due at t+1; MOML taps its first lines at t and holds the slot until
128 / w + 2 cycles later. -/
def Sys2Proof.Rules.OperandMemory : Prop :=
  (∀ (o : SlotOp) (s : State), guardTrue s.cur o.g = true → s.cur.mx.claim.contains o.dst.index = false →
    exec (.mclaim o) s = .next (s.scheduled [s.effect 35 1 false (.claim o.dst.index) 0])) ∧
  (∀ (o : SlotOp) (s : State), guardTrue s.cur o.g = true → s.cur.mx.claim.contains o.dst.index = true →
    idle s.cur [3, 4] [o.dst.index] = true →
    exec (.mrel o) s = .next (s.scheduled [s.effect 35 1 false (.release o.dst.index) 0])) ∧
  (∀ (o : SlotOp) (s : State), guardTrue s.cur o.g = true → idle s.cur [0, 1] [o.dst.index] = true →
    (s.cur.flights.all fun f => f.due != s.cur.seq.clk + 1 || match f.dest with
      | .accSeg _ t _ _ => t != o.dst.index
      | .accZero t => t != o.dst.index
      | _ => true) = true →
    exec (.mzero o) s = .next (s.scheduled [s.effect 35 1 false (.accZero o.dst.index) 0])) ∧
  (∀ (o : SlotOp) (s : State) (aw : Bool) (lane : Nat), guardTrue s.cur o.g = true → s.cur.mx.momlFree ≤ s.cur.seq.clk →
    o.a = .tap aw lane → s.cur.mx.claim.contains o.dst.index = true → idle s.cur [3, 4] [o.dst.index] = true →
    let w := 2 ^ (o.mod % 4)
    ((List.range w).all fun i => (tap s.cur aw (lane + i) 16).isSome) = true →
    exec (.moml o) s = .next (onMx s fun m => { m with
      flights := m.flights ++ [{ due := s.cur.seq.clk + 128 / w + 2, opc := 7, dst := o.dst.index, fmt := 0, words := [], lines := (List.range w).map fun i => (tap s.cur aw (lane + i) 16).getD 0, aw := aw, lane := lane, width := w, left := 128 / w - 1, poison := false, superseded := false, ev := .none, rows := 0, pc := s.issue.pc, issue := s.issue.issue }]
      momlFree := s.cur.seq.clk + 128 / w
      windows := m.windows ++ windowsFrom s 4 [o.dst.index] (128 / w + 2) }))

/-- R242, R243, R249, R252: APRD reads a segment at t and drives its sixteen words at station 16 on t+4; APWR and APADD bring the line
they tap to the segment on t+4 and t+6. -/
def Sys2Proof.Rules.AccumulatorPorts : Prop :=
  (∀ (o : ApOp) (s : State), guardTrue s.cur o.g = true → scalarUe s.cur o.row = false →
    let tile := o.tile.index
    let row := (scalarVal s.cur o.row).toNat % 64
    let key (i : Nat) := tile * 4096 + row * 64 + o.seg * 16 + i
    let spoilt := (List.range 16).any fun i => s.cur.mx.accUe.contains (key i / 2)
    idle s.cur [0] [tile] = true → laneFree s o.aw o.lane 16 (s.cur.seq.clk + 4) = true →
    ∃ v : Line, (∀ i, i < 16 → elem 32 v i =
        if s.cur.mx.accUe.contains (key i / 2) then 0xFFC00BAD else (tget 0 s.cur.mx.acc (key i)).toNat) ∧
      exec (.aprd o) s = .next ((laneClaimed
        (if spoilt then onMx s fun m => { m with accPoison := insNat tile m.accPoison } else s) o.aw o.lane 16 (s.cur.seq.clk + 4)).scheduled
        [s.effect o.pos 4 false (.drive o.aw o.lane 16) v])) ∧
  (∀ (o : ApOp) (s : State) (d : Line), guardTrue s.cur o.g = true → scalarUe s.cur o.row = false →
    let tile := o.tile.index
    let row := (scalarVal s.cur o.row).toNat % 64
    idle s.cur [0, 1] [tile] = true → tap s.cur o.aw o.lane 16 = some d →
    ∀ q ∈ [(Instr.apwr o, false, 4), (Instr.apadd o, true, 6)],
      (s.cur.flights.all fun f => f.due != s.cur.seq.clk + q.2.2 ||
        (f.dest != .accSeg false tile row o.seg && f.dest != .accSeg true tile row o.seg && f.dest != .accZero tile)) = true →
      exec q.1 s = .next (onMx (s.scheduled [s.effect o.pos q.2.2 false (.accSeg q.2.1 tile row o.seg) d])
        fun m => { m with windows := m.windows ++ windowsFrom s 2 [tile] q.2.2 }))

/-- Operand memory and the accumulator ports. -/
def Obligations.OperandMemoryAndPorts : Prop := Rules.OperandMemory ∧ Rules.AccumulatorPorts


namespace Sys2Proof.Rules

/-- An hd operation may issue: no HOPEN or HCLOSE window is open, the coder is free of the last push or pop where the operation needs
it, HCLOSE finds nothing in flight, and this is not the cycle of a late fault (R71, R270 to R272). -/
def hodReady (s : State) (opc : Nat) : Bool :=
  let h := s.cur.hod
  let now := s.cur.seq.clk
  (opc == 10 || decide (h.openUntil ≤ now)) && (!([2, 3, 5, 6, 7].contains opc) || decide (h.coderFree ≤ now)) &&
  (opc != 12 || (h.flights.isEmpty && h.flush.isNone)) && h.deadAt != now + 1

/-- What an hd operation latches at its issue, due lat cycles on (R270). -/
def hodFlight (s : State) (opc lat : Nat) (o : HdOp) : HodFlight :=
  { due := s.cur.seq.clk + lat, opc := opc, op := o, fmt := 0, freqs := [], prec := 0, lt := 0, left := 0, lines := [],
    child := none, clk := s.cur.seq.clk, held := [], pc := s.issue.pc, issue := s.issue.issue }

/-- The Hod of the issuing brick changes. -/
def onHod (s : State) (f : Hod → Hod) : State := s.onCur fun x => { x with hod := f x.hod }

/-- An operation joins those in flight. -/
def hodFlown (s : State) (f : HodFlight) : State := onHod s fun h => { h with flights := h.flights ++ [f] }

/-- Every lane state is 0x0001_0000 (R260). -/
def atBase (c : HodCore) : Prop := ∀ x ∈ c.lanes, x = 0x00010000

/-- A variable command can be accepted: room in the queue, its status word not busy, its barrier below 255 (R125, R127). -/
def acceptable (s : State) (vs off : Nat) : Bool :=
  decide (s.cur.var.queue.length < 32) && !(tget (0 : Word) s.cur.var.vs vs).getLsbD 0 &&
    tget 0 s.cur.var.barriers (barrierOf s.cur off) != 255

/-- It is accepted: queued with its barrier, its epoch, the status word of before and where and when it issued; its status word is 1 and the
bundle has taken it, the barrier is one more (R125, R133). -/
def accepted (s : State) (off : Nat) (c : VCmd) : State :=
  { s with issue := { s.issue with taken := c.vs :: s.issue.taken } }.onCur fun x => { x with var := { x.var with
    queue := x.var.queue ++ [{ c with
      bar := barrierOf s.cur off, epoch := x.var.epoch, was := tget 0 x.var.vs c.vs, pc := s.issue.pc, issue := s.issue.issue,
      since := s.tb.ct, clk := s.cur.seq.clk }]
    vs := tput 0 x.var.vs c.vs 1
    barriers := tput 0 x.var.barriers (barrierOf s.cur off) (tget 0 x.var.barriers (barrierOf s.cur off) + 1) } }

/-- Claims of one lane at one station on several plan counts. -/
def lanesClaimed (s : State) (aw : Bool) (lane station : Nat) (ats : List Nat) : State :=
  s.onCur fun x => { x with ring := { x.ring with lanes := x.ring.lanes ++ ats.map fun a => ⟨aw, lane, station, a, none⟩ } }

end Sys2Proof.Rules

/-- R271, R272: HOPEN latches the three Hod registers and translates the regions, of a root or a child; HCLOSE wants an empty stack and lanes at
base; HCLOSE.DISCARD does not. The state is due at t+4 and no other hd operation may come before. -/
def Obligations.HodOpensAndCloses : Prop :=
  (∀ (o : HdOp) (s : State), ∀ i ∈ [Instr.hopen o, .hopenChild o], guardTrue s.cur o.g = true → hodReady s 1 = true →
    s.cur.hod.issued.mode = .closed → s.cur.hod.flights = [] →
    let cfg := sysGet s.cur 0x04C
    let groups := field cfg.toNat 16 14
    let units := field cfg.toNat 32 16
    let h := if groups ≠ 0 then hodRegion s (sysGet s.cur 0x04D).toNat (groups * 1507328) 0 1507328 else ⟨0, 0, 0, false, 0⟩
    let d := if units ≠ 0 then hodRegion s (sysGet s.cur 0x04E).toNat (units * 11776) 2 1 else ⟨0, 0, 0, false, 0⟩
    h.cause = 0 → d.cause = 0 →
    exec i s = .next (onHod (hodFlown s (hodFlight s 1 4 o)) fun q => { q with
      cfg := cfg
      splitTag := o.tag
      hbmBase := h.addr
      deepBase := d.addr
      deepPaged := d.paged
      openUntil := s.cur.seq.clk + 4 })) ∧
  (∀ (o : HdOp) (s : State), guardTrue s.cur o.g = true → hodReady s 12 = true →
    let c := s.cur.hod.issued
    let t := onHod (hodFlown s (hodFlight s 12 4 o)) fun q => { q with openUntil := s.cur.seq.clk + 4 }
    (c.mode = .root → c.top = 0 → c.recs = [] → atBase c → exec (.hclose o) s = .next t) ∧
    (c.mode ≠ .sealing → exec (.hcloseDiscard o) s = .next t))

/-- R265, R268, R273, R274, R282: HPUSH taps its first line and latches its table, and its record is due ⌈n ÷ ℓ⌉ + 6 cycles on; HPOP
wants the record of its own tile on top, of the stack or of the child that HODCFG names, and claims its lane from ⌈n ÷ ℓ⌉ + 12 on. -/
def Obligations.HodPushesAndPops : Prop :=
  (∀ (o : HdOp) (s : State) (d : Line), guardTrue s.cur o.g = true → hodReady s 2 = true →
    let c := s.cur.hod.issued
    let fmt := resolveFmt s.cur o.fmt
    let n := 64 * (o.count + 1)
    let lines := (n * fmtWidth fmt + 511) / 512
    let steps := (n + c.ell - 1) / c.ell
    let tbl := s.cur.hod.table s.cur.seq.clk o.table
    (c.mode = .root ∨ c.mode = .child) → Machine.hodFormat fmt = true → lines ≤ steps → c.recs.length < 4096 →
    tap s.cur o.aw o.lane 17 = some d →
    exec (.hpush o) s = .next (onHod (hodFlown s { hodFlight s 2 (steps + 6) o with
      fmt := fmt, freqs := tbl.1, prec := tbl.2, lt := lines, left := lines - 1, lines := [d] })
        fun q => { q with coderFree := s.cur.seq.clk + steps + 2 })) ∧
  (∀ (o : HdOp) (s : State) (r : HodRec), guardTrue s.cur o.g = true → hodReady s 3 = true →
    let c := s.cur.hod.issued
    let fmt := resolveFmt s.cur o.fmt
    let idx := field (sysGet s.cur 0x04C).toNat 10 6
    let kid := if c.onBlock then c.childOf idx else none
    let ell := match kid with | some k => k.ell | none => c.ell
    let n := 64 * (o.count + 1)
    let lines := (n * fmtWidth fmt + 511) / 512
    let steps := (n + ell - 1) / ell
    let tbl := s.cur.hod.table s.cur.seq.clk o.table
    let ats := (List.range lines).map fun j => s.cur.seq.clk + steps + 12 + j
    (c.mode = .root ∨ c.mode = .child) → Machine.hodFormat fmt = true → o.table < 64 → o.count < 64 → o.tag < 2 ^ 16 →
    (if c.onBlock then kid.bind fun k => k.recs.head? else c.recs.head?) = some r → r.kind = 1 →
    field r.bits.toNat 4 32 = fmt + 2 ^ 4 * o.table + 2 ^ 10 * o.count + 2 ^ 16 * o.tag →
    (∀ k, kid = some k → k.fresh = true → atBase c) → ats.all (laneFree s o.aw o.lane 17) = true →
    exec (.hpop o) s = .next (onHod (hodFlown (lanesClaimed s o.aw o.lane 17 ats) { hodFlight s 3 (steps + 12) o with
      fmt := fmt, freqs := tbl.1, prec := tbl.2, lt := lines, child := if c.onBlock then some idx else none })
        fun q => { q with coderFree := s.cur.seq.clk + steps + 2 }))

/-- R270, R276: the stack shows every operation whose cycle has come, as issue order makes it: with all of them due the stack in issue
order, with none the stack as it stood; a push whose record cycle comes before an earlier pop's commit shows over the pop's tile the
record that it codes from the lanes after the pop, and its words on TOP; a mark and its drop over such a tile leave it as it was. -/
def Sys2Proof.Rules.StackShows : Prop :=
  (∀ (h : Hod) (clk : Nat), (∀ f ∈ h.flights, f.due ≤ clk) → (h.seen clk).core = h.issued) ∧
  (∀ (h : Hod) (clk : Nat), (∀ f ∈ h.flights, clk < f.due) → h.seen clk = h) ∧
  (∀ (h : Hod) (clk : Nat) (p f : HodFlight), h.flights = [p, f] → p.opc = 3 → p.child = none → f.opc = 2 → clk < p.due → f.due ≤ clk →
    h.core.recs ≠ [] →
    let after := (hodEffect h.coming h.core p).core
    let d := (hodEffect h.coming after f).core
    (h.seen clk).core.recs = d.recs.take 1 ++ h.core.recs ∧ (h.seen clk).core.top = h.core.top + d.top - after.top ∧
      (h.seen clk).core.mode = h.core.mode ∧ (h.seen clk).hbmUnits = h.hbmUnits) ∧
  (∀ (h : Hod) (clk : Nat) (p f g : HodFlight), h.flights = [p, f, g] → p.opc = 3 → p.child = none → f.opc = 4 → f.op.fmt ≠ 1 → g.opc = 4 →
    g.op.fmt = 1 → clk < p.due → f.due ≤ clk → g.due ≤ clk → h.core.recs ≠ [] → h.core.lanes.length = 32 → h.core.ell ≤ 32 →
    h.core.bot ≤ (hodEffect h.coming h.core p).core.top →
    (h.seen clk).core.recs = h.core.recs ∧ (h.seen clk).core.top = h.core.top)

/-- R275 to R281: marks, cuts and splits are due at t+2 in MODE root, a cut with its mark's words and those below them in their unit as they
stand at its issue (that they go along is the model's choice: log entry 113); HSEAL in MODE child is a variable command; HJOIN waits for its
children; HTBL takes 256 frequencies off eight lanes; HSTAT drives the state of its cycle at t+2. -/
def Sys2Proof.Rules.HodStackOperations : Prop :=
  (∀ (o : HdOp) (s : State), guardTrue s.cur o.g = true → o.tag < 2 ^ 16 →
    let c := s.cur.hod.issued
    c.mode = .root →
    (hodReady s 4 = true → c.recs.length < 4096 → exec (.hmark o) s = .next (hodFlown s (hodFlight s 4 2 o))) ∧
    (∀ r, hodReady s 4 = true → c.recs.head? = some r → r.kind = 2 → r.tag = o.tag → atBase c →
      exec (.hmarkDrop o) s = .next (hodFlown s (hodFlight s 4 2 o))) ∧
    (∀ r, hodReady s 5 = true → c.recs.find? (fun r => r.kind == 2) = some r → r.tag = o.tag →
      let foot := r.pos / 5888 * 5888
      exec (.hcut o) s = .next (hodFlown s { hodFlight s 5 2 o with
        held := s.stackWords s.issue.brick c foot (r.pos + 2 * c.ell - foot) })) ∧
    (hodReady s 6 = true → c.recs.length + o.count + 2 ≤ 4096 → exec (.hsplit o) s = .next (hodFlown s (hodFlight s 6 2 o)))) ∧
  (∀ (o : HdOp) (s : State), guardTrue s.cur o.g = true → hodReady s 7 = true → s.cur.hod.issued.mode = .child →
    acceptable s (o.tag % 64) (o.tag / 64 % 32) = true →
    exec (.hseal o) s = .next (hodFlown (accepted s (o.tag / 64 % 32)
      { opc := 7, w0 := 0, w1 := 0, w2 := 0, vs := o.tag % 64, bar := 0, epoch := 0, writes := false, target := 0, kind := 0, grans := [] })
        (hodFlight s 7 2 o))) ∧
  (∀ (o : HdOp) (s : State) (r h : HodRec), guardTrue s.cur o.g = true → hodReady s 8 = true → o.tag < 2 ^ 16 →
    let c := s.cur.hod.issued
    let kids := c.children.filter fun k => k.hdr == h.pos
    c.mode = .splitWait → c.recs.head? = some r → r.kind = 3 → r.tag = o.tag → c.block = some h →
    (kids.all (fun k => k.state != 0 && k.state != 2) = true →
      (s.cur.hod.flights = [] →
        exec (.hjoin o) s = .next (onHod s fun q => { q with joinWait := 0, core := { q.core with mode := .root } })) ∧
      (∀ f rest, s.cur.hod.flights = f :: rest → s.cur.seq.clk < f.due →
        exec (.hjoin o) s = .next (onHod (hodFlown s (hodFlight s 8 0 o)) fun q => { q with joinWait := 0 }))) ∧
    (kids.any (fun k => k.state == 0) = true → s.cur.hod.joinWait < 2 ^ 20 →
      exec (.hjoin o) s = .next { s with issue := { s.issue with wait := true, joins := true } })) ∧
  (∀ (o : HdOp) (s : State), guardTrue s.cur o.g = true → hodReady s 9 = true →
    let taps := (List.range 8).map fun q => tap s.cur o.aw (o.lane + q) 17
    let freqs := taps.flatMap fun l => (List.range 32).map fun e => elem 16 (l.getD 0) e
    taps.all Option.isSome = true → freqs.all (fun f => decide (f ≤ 2 ^ o.fmt)) = true → freqs.sum = 2 ^ o.fmt →
    exec (.htbl o) s = .next (hodFlown s { hodFlight s 9 2 o with freqs := freqs, prec := o.fmt })) ∧
  (∀ (o : HdOp) (s : State), guardTrue s.cur o.g = true → hodReady s 10 = true → laneFree s o.aw o.lane 17 (s.cur.seq.clk + 2) = true →
    let g := s.cur.hod.seen s.cur.seq.clk
    let c := g.core
    c.recs.length < 2 ^ 16 → c.ell ≤ 2 ^ 8 → g.hbmUnits < 2 ^ 32 → g.deepUnits < 2 ^ 32 →
    ∃ v : Line, elem 64 v 0 = c.top % 2 ^ 64 ∧ elem 64 v 1 = c.bot % 2 ^ 64 ∧ elem 16 v 8 = c.recs.length ∧ elem 8 v 18 = c.ell - 1 ∧
      elem 8 v 19 = [HodMode.closed, .root, .splitWait, .child, .sealing].idxOf c.mode ∧
      elem 32 v 5 = g.hbmUnits ∧ elem 32 v 6 = g.deepUnits ∧
      elem 32 v 7 + 2 ^ 32 * elem 32 v 8 = ((c.recs.map fun r => r.bits.toNat).head?).getD 0 ∧ (∀ e, 9 ≤ e → elem 32 v e = 0) ∧
      exec (.hstat o) s = .next ((hodFlown (laneClaimed s o.aw o.lane 17 (s.cur.seq.clk + 2)) (hodFlight s 10 2 o)).scheduled
        [s.effect 38 2 false (.drive o.aw o.lane 17) v])) ∧ StackShows

/-- The units that a window under way has still to move. -/
def Sys2Proof.Rules.underWay (h : Hod) (kind : WinKind) : Nat :=
  match h.win with
  | some w => if w.kind = kind ∧ w.stopped = false then w.n else 0
  | none => 0

/-- R270, R276, R278, R286: HFLUSH with room on the other side, by the units that show as it issues and those of a window under way, is accepted, in any MODE, as a variable command of the
deep region's bytes and stands until its windows are done; one that asks for too much, or comes while another stands, ends at once
with code 4. R122: one whose paged region leaves the variable address space ends with code 10 at the first byte beyond it. -/
def Sys2Proof.Rules.HodFlushes : Prop :=
  ∀ (o : HdOp) (s : State), ∀ q ∈ [(Instr.hflushDown o, false), (Instr.hflushUp o, true)],
    guardTrue s.cur o.g = true → hodReady s 11 = true →
    let h := s.cur.hod
    let g := h.seen s.cur.seq.clk
    let k := o.count + 1
    let vs := o.tag % 64
    let most := field h.cfg.toNat 32 16
    let room := if q.2 then k ≤ g.deepUnits ∧ g.hbmUnits + underWay g .spill + k ≤ 4 * field h.cfg.toNat 16 14
      else k + underWay g .refill ≤ g.hbmUnits ∧ g.deepUnits + k ≤ most
    let first := if q.2 then g.deepUnits - k else g.deepUnits
    let at' := fun i : Nat => h.deepBase + 11776 * ((first + i / 184) % max 1 most) + 64 * (i % 184)
    let inside := fun i : Nat => h.deepPaged = false ∨ at' i + 64 ≤ 2 ^ 48
    let t := accepted s (o.tag / 64 % 32)
      { opc := 11, w0 := 0, w1 := 0, w2 := 0, vs := vs, bar := 0, epoch := 0, writes := false, target := h.deepBase, kind := 2, grans := [], side := q.2.toNat, paged := h.deepPaged, size := 11776 * k }
    acceptable s vs (o.tag / 64 % 32) = true →
    (h.flush = none → room → (∀ i, i < 184 * k → inside i) → exec q.1 s = .next (onHod t fun h => { h with
      flush := some ⟨q.2, k, vs, first, k⟩, staged := [], stagedBad := [] })) ∧
    (∀ i, h.flush = none → room → i < 184 * k → ¬ inside i → (∀ j, j < i → inside j) → ∃ u, exec q.1 s = .next u ∧
      let v := (tget (0 : Word) u.cur.var.vs vs).toNat
      field v 0 4 = 6 ∧ field v 8 4 = 10 ∧ field v 32 32 = (64 * i + (2 ^ 48 - at' i)) % 2 ^ 32 ∧ u.cur.hod = h ∧
        ∀ c ∈ u.cur.var.queue, c.vs ≠ vs) ∧
    ((h.flush ≠ none ∨ ¬ room) → ∃ u, exec q.1 s = .next u ∧
      let v := (tget (0 : Word) u.cur.var.vs vs).toNat
      field v 0 4 = 6 ∧ field v 8 4 = 4 ∧ u.cur.hod = h ∧ ∀ c ∈ u.cur.var.queue, c.vs ≠ vs)

/-- The operations on the Hod stack, and the flushes. -/
def Obligations.HodStackAndFlushes : Prop := Rules.HodStackOperations ∧ Rules.HodFlushes

/-- R263: a coding step of a symbol within the table keeps the state in its range; a decoding step finds the symbol and undoes it, and
pops a word just where the coding step pushed one. -/
def Obligations.CoderStepInverts : Prop :=
  ∀ x f c k : Nat, 2 ^ 16 ≤ x → x < 2 ^ 32 → 0 < f → c + f ≤ 2 ^ k → k ≤ 16 →
    let y := (encodeStep x f c k).1
    let w := (encodeStep x f c k).2
    let z := f * (y / 2 ^ k) + y % 2 ^ k - c
    2 ^ 16 ≤ y ∧ y < 2 ^ 32 ∧ c ≤ y % 2 ^ k ∧ y % 2 ^ k < c + f ∧
    (z < 2 ^ 16 → w = some (BitVec.ofNat 16 x) ∧ x / 2 ^ 16 = z) ∧ (2 ^ 16 ≤ z → w = none ∧ z = x)

/-- R263 to R265: a tile that codes, with its table or raw, decodes from the words it pushed to the same elements, and leaves the lane
states as they were before it. -/
def Obligations.TilesDecodeBack : Prop :=
  ∀ (fmt k ell limit ptr : Nat) (raw : Bool) (freqs es : List Nat) (lanes after : List (BitVec 32)) (ws : List (BitVec 16))
    (word : Nat → Option (BitVec 16)) (marked : Nat → Bool),
    fmt ∈ [0, 1, 3, 4, 5, 8] → k ≤ 16 → 0 < ell → ell ≤ lanes.length → (∀ x ∈ lanes, 2 ^ 16 ≤ x.toNat) → freqs.sum = 2 ^ k →
    (∀ e ∈ es, e < 2 ^ (if fmt = 3 then 6 else fmtWidth fmt)) →
    codeTile fmt raw freqs k ell limit lanes es = some (after, ws) → ws.length ≤ ptr →
    (∀ j, (h : j < ws.length) → word (ptr - 1 - j) = some ws[j] ∧ marked (ptr - 1 - j) = false) →
    decodeTile fmt raw freqs k ell es.length after word marked ptr = ⟨lanes, ws.length, false, false, false, es.reverse⟩


namespace Sys2Proof.Rules

/-- The stack holds the words from BOT to TOP, none above TOP known to be bad, and 32 lane states of which the coder uses the first ell,
the rest at base (R260). -/
def stackOk (c : HodCore) : Prop :=
  c.bot ≤ c.top ∧ (∀ q ∈ c.bad, q < c.top) ∧ c.words.length = c.top - c.bot ∧ c.lanes.length = 32 ∧ c.ell ≤ 32 ∧
    ∀ j, c.ell ≤ j → j < 32 → c.lanes.getD j 0x00010000 = 0x00010000

end Sys2Proof.Rules

/-- R260, R277 to R280: a mark saves the lanes and its drop, or a cut from whatever was pushed since, brings the stack back as it was;
a split saves the lanes, gives each child an entry and waits; a seal pushes the lanes, the records and their count. -/
def Sys2Proof.Rules.HodMarksRestore : Prop :=
  (∀ (c : HodCore) (f g : HodFlight) (n : Nat), stackOk c → f.opc = 4 → f.op.fmt ≠ 1 → g.opc = 4 → g.op.fmt = 1 →
    let d := (hodEffect n c f).core
    d.top = c.top + 2 * c.ell ∧ atBase d ∧ (hodEffect n d g) = .ok c) ∧
  (∀ (c : HodCore) (f g : HodFlight) (n : Nat) (ws : List (BitVec 16)) (rs : List HodRec) (lanes : List (BitVec 32)) (ks : List HodChild),
    stackOk c → (∀ k ∈ c.children, k.hdr < c.top) → (∀ k ∈ ks, c.top ≤ k.hdr) → (∀ r ∈ rs, r.kind ≠ 2) →
    f.opc = 4 → f.op.fmt ≠ 1 → g.opc = 5 →
    let d := (hodEffect n c f).core
    hodEffect n { (d.push ws) with lanes := lanes, recs := rs ++ d.recs, children := c.children ++ ks } g = .ok c) ∧
  (∀ (c : HodCore) (f : HodFlight) (n : Nat), stackOk c → f.opc = 6 → f.op.count < 64 → f.op.tag < 2 ^ 16 →
    let d := (hodEffect n c f).core
    d.mode = .splitWait ∧ d.top = c.top + 2 * c.ell ∧ d.bot = c.bot ∧ atBase d ∧ d.recs.length = c.recs.length + f.op.count + 2 ∧
      (∀ r, d.recs.head? = some r → r.kind = 3 ∧ r.tag = f.op.tag) ∧
      (∀ i, i ≤ f.op.count → ∃ k ∈ d.children, k.hdr = c.top ∧ k.idx = i ∧ k.state = 0)) ∧
  (∀ (c : HodCore) (f : HodFlight) (n : Nat), stackOk c → f.opc = 7 →
    let d := (hodEffect n c f).core
    d.mode = .sealing ∧ d.top = c.top + 2 * c.ell + 4 * c.recs.length + 2 ∧ d.words.drop (d.top - c.top) = c.words ∧ d.recs = c.recs)

/-- R282: the commit of a pop of a child of the SPLIT block on top takes the record off the child and drives its lines; the child's own
lanes and words serve it, and the parent's stack stays; with the last record of the last child the block goes: TOP falls to the header's
position and the parent's lanes are as the header saved them. -/
def Sys2Proof.Rules.ChildPops : Prop :=
  ∀ (b i : Nat) (s : State) (f : HodFlight) (hd r : HodRec) (rest : List HodRec) (kd : HodChild), let h := (s.brick b).hod
    let clk := (s.brick b).seq.clk
    h.flights = [f] → f.opc = 3 → f.child = some i → f.due = clk → h.drives = [] → 0 < f.lt →
    h.core.block = some hd → h.core.childOf i = some kd → kd.recs = r :: rest →
    let d := decodeTile f.fmt r.raw f.freqs f.prec kd.ell (64 * (f.op.count + 1)) kd.lanes h.core.word h.core.marked kd.ptr
    d.below = false → d.bad = false → d.lost = false → d.used = r.words → (rest = [] → ∀ x ∈ d.lanes, x = 0x00010000) →
    let kids := h.core.children.map fun q =>
      if q.hdr = kd.hdr ∧ q.idx = kd.idx then { kd with lanes := d.lanes, recs := rest, ptr := kd.ptr - d.used, fresh := false } else q
    let commits := fun core : HodCore => ∃ lines : List Line, lines.length = f.lt ∧
      (∀ e, e < 64 * (f.op.count + 1) → (∀ x ∈ d.out, x < 2 ^ fmtWidth f.fmt) →
        (e + 1) * fmtWidth f.fmt ≤ 512 * f.lt → field (linesNat lines) (fmtWidth f.fmt * e) (fmtWidth f.fmt) = d.out.reverse.getD e 0) ∧
      exec (.hpopCommit b) s = .next (s.onBrick b fun x => fillLane { x with hod := { h with
        flights := []
        drives := (lines.tail.zipIdx).map fun p => (clk + 1 + p.2, f.op.aw, f.op.lane, p.1)
        core := core } } f.op.aw f.op.lane 17 clk (lines.headD 0))
    ((∃ q ∈ kids, q.hdr = hd.pos ∧ q.recs ≠ []) → commits { h.core with children := kids }) ∧
    (∀ saved, (∀ q ∈ kids, q.hdr = hd.pos → q.recs = []) → h.core.lanesAt hd.pos = some saved → h.core.badLanes hd.pos = false →
      commits { h.core with
        words := h.core.words.drop (h.core.top - hd.pos)
        top := hd.pos
        bad := h.core.bad.filter (· < hd.pos)
        lanes := saved
        recs := h.core.recs.drop (hd.count + 2)
        children := kids.filter fun q => q.hdr ≠ hd.pos })

/-- R265, R270, R273, R274, R278: the record cycle of a push in flight puts its words and its TILE record on the stack; the commit of a pop
takes them off and drives its lines at station 17, one each cycle, a pop of a child's record those of the child; the other operations act at their own cycles, and a cut below BOT frees the units above the new one, of an HFLUSH outstanding too, and
stops a spill or refill under way (that one whose BOT falls stops them is the model's choice: log entry 113). -/
def Sys2Proof.Rules.HodRecordsAndCommits : Prop :=
  (∀ (b : Nat) (s : State) (f : HodFlight), let h := (s.brick b).hod
    h.flights = [f] → f.opc = 2 → f.due = (s.brick b).seq.clk → h.drives = [] → h.core.bot ≤ h.core.top →
    ∀ (raw : Bool) (lanes : List (BitVec 32)) (ws : List (BitVec 16)),
    let n := 64 * (f.op.count + 1)
    let w := fmtWidth f.fmt
    let es := (List.range n).map fun e => field (linesNat f.lines) (w * e) w
    (raw = true ↔ codeTile f.fmt false f.freqs f.prec h.core.ell (n * w / 16) h.core.lanes es = none) →
    codeTile f.fmt raw f.freqs f.prec h.core.ell (if raw then 2 * n + 32 else n * w / 16) h.core.lanes es = some (lanes, ws) →
    h.core.top + ws.length - h.core.bot + h.coming ≤ 22 * 5888 →
    exec (.hpushRecord b) s = .next (s.onBrick b fun x => { x with hod := { h with
      flights := []
      core := { h.core with
        words := ws ++ h.core.words
        top := h.core.top + ws.length
        lanes := lanes
        recs := ⟨recBits 1 raw false f.fmt f.op.table f.op.count f.op.tag ws.length, h.core.top⟩ :: h.core.recs } } })) ∧
  (∀ (b : Nat) (s : State) (f : HodFlight) (r : HodRec) (rest : List HodRec), let h := (s.brick b).hod
    let clk := (s.brick b).seq.clk
    h.flights = [f] → f.opc = 3 → f.child = none → f.due = clk → h.drives = [] → 0 < f.lt → h.core.recs = r :: rest →
    let d := decodeTile f.fmt r.raw f.freqs f.prec h.core.ell (64 * (f.op.count + 1)) h.core.lanes h.core.word h.core.marked h.core.top
    d.below = false → d.bad = false → d.lost = false → d.used = r.words → (rest = [] → ∀ x ∈ d.lanes, x = 0x00010000) →
    ∃ lines : List Line, lines.length = f.lt ∧
      (∀ e, e < 64 * (f.op.count + 1) → (∀ x ∈ d.out, x < 2 ^ fmtWidth f.fmt) →
        (e + 1) * fmtWidth f.fmt ≤ 512 * f.lt → field (linesNat lines) (fmtWidth f.fmt * e) (fmtWidth f.fmt) = d.out.reverse.getD e 0) ∧
      exec (.hpopCommit b) s = .next (s.onBrick b fun x => fillLane { x with hod := { h with
        flights := []
        drives := (lines.tail.zipIdx).map fun p => (clk + 1 + p.2, f.op.aw, f.op.lane, p.1)
        core := { h.core with
          words := h.core.words.drop (h.core.top - (h.core.top - d.used))
          top := h.core.top - d.used
          bad := h.core.bad.filter (· < h.core.top - d.used)
          lanes := d.lanes
          recs := rest } } } f.op.aw f.op.lane 17 clk (lines.headD 0))) ∧
  (∀ (b : Nat) (s : State) (f : HodFlight), let h := (s.brick b).hod
    h.flights = [f] → f.opc ∈ [4, 5, 6, 7, 8] → f.due = (s.brick b).seq.clk → h.drives = [] →
    (hodEffect h.coming h.core f).code = 0 →
    let d := (hodEffect h.coming h.core f).core
    let t := { h with flights := [], core := d }
    (f.opc ≠ 5 ∨ h.core.bot ≤ d.bot → exec (.hpushRecord b) s = .next (s.onBrick b fun x => { x with hod := t })) ∧
    (f.opc = 5 → d.bot < h.core.bot → exec (.hpushRecord b) s = .next (s.onBrick b fun x => { x with hod := { t with
      hbmUnits := min h.hbmUnits (d.bot / 5888 - h.deepUnits)
      deepUnits := min h.deepUnits (d.bot / 5888)
      lost := h.lost.filter (· < d.bot / 5888)
      flush := h.flush.map fun q => { q with live := min q.live (d.bot / 5888 - q.first) }
      win := h.win.map fun w =>
        if (w.kind = .refill ∧ 5888 * (w.first + w.n) ≠ d.bot) ∨ w.kind = .spill then { w with stopped := true } else w } }))) ∧
  ChildPops

/-- Marks restore, records push, commits pop. -/
def Obligations.HodMarksAndRecords : Prop := Rules.HodMarksRestore ∧ Rules.HodRecordsAndCommits

/-- R280, R281: the words of a sealed child, wherever they are held, land above its parent's SPLIT block and its entry has arrived, the
child's transfer ends and its Hod closes, where the parent is parked too; behind operations that issued before the HSPLIT and are in
flight the arrival takes its place in issue order, and an end under the target's code 3 or 4 fails the entry (the model's choices: log
entry 149); a wait of HJOIN past 2^20 cycles is fault 0x11. -/
def Sys2Proof.Rules.HodChildrenArrive : Prop :=
  (∀ (b : Nat) (s : State) (cmd : VCmd) (r : HodRec) (k : HodChild),
    let h := (s.brick b).hod
    let p := field h.cfg.toNat 0 10
    let c := (s.brick p).hod.core
    let ws := s.stackWords b h.core 0 h.core.top
    b < 768 → p < 768 → (s.brick p).task = (s.brick b).task →
    (s.brick b).var.queue.find? (fun c => c.opc == 7) = some cmd → h.core.mode = .sealing → p ≠ b →
    p ∈ (s.part (s.partOf b)).bricks → c.mode = .splitWait → c.block = some r → r.tag = h.splitTag →
    c.childOf (field h.cfg.toNat 10 6) = some k → k.state = 0 →
    c.top + ws.length - c.bot + (s.brick p).hod.coming ≤ 22 * 5888 →
    ∃ t, exec (.childArrival b) s = .next t ∧
      (t.brick p).hod.core.words = (ws.map (·.1)).reverse ++ c.words ∧ (t.brick p).hod.core.top = c.top + ws.length ∧
      (h.core.bot = 0 → h.core.words.length = h.core.top → (ws.map (·.1)).reverse = h.core.words) ∧
      (∃ k', (t.brick p).hod.core.childOf (field h.cfg.toNat 10 6) = some k' ∧ k'.state = 1 ∧ k'.ell = h.core.ell ∧
        k'.lanes = h.core.lanes ∧ k'.recs.map HodRec.bits = h.core.recs.map HodRec.bits) ∧
      (t.brick b).hod.core.mode = .closed ∧ (∀ q ∈ (t.brick b).var.queue, q.vs ≠ cmd.vs) ∧
      (∀ a, a ≠ b → a ≠ p → t.brick a = s.brick a) ∧ t = { s with bricks := t.bricks }) ∧
  (∀ (b n : Nat) (s : State) (cmd : VCmd) (r : HodRec) (k : HodChild) (y : Brick),
    let h := (s.brick b).hod
    let p := field h.cfg.toNat 0 10
    let c := y.hod.core
    let ws := s.stackWords b h.core 0 h.core.top
    b < 768 → p < 768 → (s.brick b).task = some n → (s.brick p).task ≠ some n → (s.task n).savedBrick p = some y →
    (s.brick b).var.queue.find? (fun c => c.opc == 7) = some cmd → h.core.mode = .sealing →
    p ∈ (s.part (s.partOf b)).bricks → c.mode = .splitWait → c.block = some r → r.tag = h.splitTag →
    c.childOf (field h.cfg.toNat 10 6) = some k → k.state = 0 → c.top + ws.length - c.bot + y.hod.coming ≤ 22 * 5888 →
    ∃ t z, exec (.childArrival b) s = .next t ∧ (t.task n).savedBrick p = some z ∧
      z.hod.core.words = (ws.map (·.1)).reverse ++ c.words ∧ z.hod.core.top = c.top + ws.length ∧ z.ring = y.ring ∧ z.seq = y.seq ∧
      (t.brick b).hod.core.mode = .closed ∧ ∀ a, a ≠ b → t.brick a = s.brick a) ∧
  (∀ (b : Nat) (s : State) (cmd : VCmd) (r : HodRec) (k : HodChild),
    let h := (s.brick b).hod
    let p := field h.cfg.toNat 0 10
    let i := field h.cfg.toNat 10 6
    let x := s.brick p
    let c := (x.hod.seen (x.seq.clk - 1)).core
    let ws := s.stackWords b h.core 0 h.core.top
    b < 768 → p < 768 → x.task = (s.brick b).task →
    (s.brick b).var.queue.find? (fun c => c.opc == 7) = some cmd → h.core.mode = .sealing → p ≠ b → p ∈ (s.part (s.partOf b)).bricks →
    x.hod.core.mode = .root → c.mode = .splitWait → c.block = some r → r.tag = h.splitTag → c.childOf i = some k → k.state = 0 →
    x.hod.issued.childOf i = some k → c.top + ws.length - c.bot + x.hod.coming ≤ 22 * 5888 →
    ∃ t f, exec (.childArrival b) s = .next t ∧ (t.brick p).hod = { x.hod with flights := x.hod.flights ++ [f] } ∧
      (∃ k', (t.brick p).hod.issued.childOf i = some k' ∧ k'.state = 1 ∧ k'.ell = h.core.ell ∧ k'.lanes = h.core.lanes) ∧
      (t.brick b).hod.core.mode = .closed ∧ ∀ q ∈ (t.brick b).var.queue, q.vs ≠ cmd.vs) ∧
  (∀ (b v code off : Nat) (s : State) (cmd : VCmd) (r : HodRec) (k : HodChild), code = 3 ∨ code = 4 →
    let h := (s.brick b).hod
    let p := field h.cfg.toNat 0 10
    let i := field h.cfg.toNat 10 6
    let c := (s.brick p).hod.core
    b < 768 → v < 64 → p < 768 → (s.brick p).task = (s.brick b).task → (s.brick b).var.queue.find? (fun d => d.vs == v) = some cmd →
    (s.brick b).var.queue.find? (fun c => c.opc == 7) = some cmd → cmd.opc = 7 → h.core.mode = .sealing → p ≠ b → p ∈ (s.part (s.partOf b)).bricks →
    c.mode = .splitWait → c.block = some r → r.tag = h.splitTag → c.childOf i = some k →
    ∃ t, exec (.variableDone b v ⟨code, off⟩) s = .next t ∧ field (tget (0 : Word) (t.brick b).var.vs v).toNat 0 3 = 6 ∧
      field (tget (0 : Word) (t.brick b).var.vs v).toNat 8 4 = code ∧ (t.brick b).hod.core.mode = .closed ∧
      (∃ k', (t.brick p).hod.core.childOf i = some k' ∧ k'.state = 2) ∧ ∀ q ∈ (t.brick b).var.queue, q.vs ≠ v) ∧
  (∀ (b : Nat) (s : State), let tag := ((s.brick b).hod.issued.block.map HodRec.tag).getD 0
    exec (.hjoinTimeout b) s = .next (s.foundAt 0x11 38 [(0x04F, hfWord s 11 false 8 tag)]))

/-- The window that a brick decides on, by its stack and units as they show: what it does, its first unit and the number of its units
(R276, R283 to R286). -/
def Sys2Proof.Rules.windowChoice (s : State) (b : Nat) : Option (WinKind × Nat × Nat) :=
  let h := (s.brick b).hod.seen ((s.brick b).seq.clk - 1)
  let c := h.core
  let units := (c.top - c.bot) / 5888
  let most := if s.bondMode.toNat % 4 = 1 then 4 else 8
  let free := 4 * field h.cfg.toNat 16 14 - h.hbmUnits
  let held := h.hbmUnits
  if 14 < units ∧ 0 < free then some (.spill, c.bot / 5888, min 8 (min (units - 14) free))
  else if c.top - c.bot < 35328 ∧ 0 < held then some (.refill, c.bot / 5888 - min most held, min most held)
  else match h.flush with
    | some ⟨true, _, _, first, live⟩ =>
      if live ≤ free ∧ (s.brick b).var.queue.any (fun c => c.opc = 11 && c.grans.length = (c.size + 4095) / 4096) = true then
        some (.up, first, live)
      else none
    | some ⟨false, k, _, first, _⟩ =>
      if h.staged.length / 11776 < k then some (.down, first + h.staged.length / 11776, min most (k - h.staged.length / 11776))
      else none
    | none => none

/-- R283 to R286: at its window a brick spills its lowest units while it holds more than 14 and a slot is free, else refills when it
holds less than six units, else serves an HFLUSH, else does nothing. The window's first ACT stands on that cycle, and with no table
copy in error nothing but the channels' state changes beside the decision. -/
def Sys2Proof.Rules.HodWindowsDecide : Prop :=
  ∀ (b : Nat) (s : State), b < 768 →
    (windowChoice s b = none → exec (.hodWindow b) s = .next s) ∧
    (∀ kind first n, windowChoice s b = some (kind, first, n) → 0 < n →
      let t := s.onBrick b fun x => { x with hod := { x.hod with win := some { start := s.tb.ct, kind := kind, first := first, n := n, lines := [], cracked := s.bondMode.toNat % 4 == 1, stopped := false } } }
      let p := (s.brick b).hod.unitPlace b first
      exec (.hodWindow b) s = .next (t.windowAct (b % 32) p.bank p.row) ∧
      ((∀ st, st < 24 → tget 0 ((s.channel (32 * st + b % 32)).bank p.bank).copyErr p.row = 0) →
        t.windowAct (b % 32) p.bank p.row = { t with channels := (t.windowAct (b % 32) p.bank p.row).channels }))

/-- R285, R286: with its last write at offset 42 a spill's units leave the stream buffer for HBM and BOT rises by them. -/
def Sys2Proof.Rules.SpillsRaiseBot : Prop :=
  ∀ (b : Nat) (s : State) (w : HodWin), b < 768 → (s.brick b).hod.win = some w → w.kind = .spill → w.stopped = false → w.n ≤ 8 →
    s.tb.ct = w.start + 42 →
    let h := (s.brick b).hod
    let n := min w.n ((h.core.top - h.core.bot) / 5888)
    s.windowStep b = s.onBrick b fun x => { x with hod := { h with
      core := { h.core with words := h.core.words.take (h.core.words.length - 5888 * n), bot := h.core.bot + 5888 * n }
      hbmUnits := h.hbmUnits + n
      win := some { w with stopped := true } } }

/-- Line i of the stripe that a place is in, as HBM holds it (R76). -/
def Sys2Proof.Rules.placeLine (s : State) (p : Place) (i : Nat) : Line × Bool := (s.readDataBlock p.ch p.bank p.row p.col (i / 8)).getD (i % 8) (0, false)

/-- Line i of unit m of what a window writes: 32 words of the stream buffer, poison where one is lost, or 64 staged bytes (R285, R286). -/
def Sys2Proof.Rules.windowLine (h : Hod) (w : HodWin) (m i : Nat) : Line × Bool :=
  let psn := if w.kind = .spill then (List.range 32).any fun k => h.core.marked (5888 * (w.first + m) + 32 * i + k)
    else h.stagedBad.contains (184 * m + i)
  if psn then (poisonLine, true)
  else (if w.kind = .spill then ofElems 16 ((List.range 32).map fun k => ((h.core.word (5888 * (w.first + m) + 32 * i + k)).getD 0).toNat)
    else bytesLine ((h.staged.drop (64 * (184 * m + i))).take 64), false)

/-- R284: at its offset 10 + 4m a refill's window reads the lines of its unit m, and a window that writes writes them; on a protected stripe
they read back there. -/
def Sys2Proof.Rules.WindowsMoveUnits : Prop :=
  (∀ (b m : Nat) (s : State) (w : HodWin), b < 768 → (s.brick b).hod.win = some w → w.kind = .refill → w.stopped = false → m < w.n →
    w.n ≤ (if w.cracked then 4 else 8) → w.lines.length = 184 * m → s.tb.ct = w.start + 10 + 4 * m →
    let p := (s.brick b).hod.unitPlace b (w.first + m)
    s.stripe p.ch p.bank p.row ≠ .dataLost →
    let t := s.windowStep b
    t.brick b = { s.brick b with hod := { (s.brick b).hod with
      win := some { w with lines := w.lines ++ (List.range 184).map (placeLine s p) } } } ∧
    (∀ c, c ≠ b → t.brick c = s.brick c) ∧
    t = { s with bricks := t.bricks, channels := t.channels, cecnt := t.cecnt, faq := t.faq, faqLost := t.faqLost }) ∧
  (∀ (b m : Nat) (s : State) (w : HodWin), b < 768 → (s.brick b).hod.win = some w → (w.kind = .spill ∨ w.kind = .up) → w.stopped = false →
    m < w.n → w.n ≤ 8 → s.tb.ct = w.start + 10 + 4 * m →
    let h := (s.brick b).hod
    let p := h.unitPlace b (w.first + m)
    s.stripe p.ch p.bank p.row = .bonded → (∀ st, st < 24 → s.isLost st p.ch p.bank = false) →
    (∀ st, st < 24 → physRow (s.channel (32 * st + p.ch)) p.bank p.row < 16384) →
    ∀ i, i < 184 → placeLine (s.windowStep b) p i = windowLine h w m i)

/-- R285, R286: a refill's words come below the stream buffer's and BOT falls by its units, at offset 90, or 98 in the Cracked mode, unless a cut
has freed them since; with its last write an HFLUSH up is done, and one down with the last byte of its transfer: the units still held have
moved, nothing stays staged, and DONE is set. -/
def Sys2Proof.Rules.RefillsAndFlushesEnd : Prop :=
  (∀ (b : Nat) (s : State) (w : HodWin), b < 768 → (s.brick b).hod.win = some w → w.kind = .refill → w.stopped = false → w.n ≤ (if w.cracked then 4 else 8) →
    s.tb.ct = w.start + (if w.cracked then 98 else 90) → (s.brick b).hod.flights = [] → w.lines.length = 184 * w.n →
    let h := (s.brick b).hod
    let y := ((s.windowStep b).brick b).hod
    let winAfter := if w.cracked then none else some { w with stopped := true }
    (s.windowStep b = s.onBrick b fun x => { x with hod := y }) ∧
    (h.core.bot ≠ 5888 * (w.first + w.n) → y = { h with win := winAfter }) ∧
    (h.core.bot = 5888 * (w.first + w.n) →
      (∀ j, j < 5888 * w.n → y.core.words[h.core.words.length + (5888 * w.n - 1 - j)]? = some (BitVec.ofNat 16 (elem 16 (w.lines.getD (j / 32) (0, false)).1 (j % 32)))) ∧
      (∀ i, i < h.core.words.length → y.core.words[i]? = h.core.words[i]?) ∧ y.core.words.length = h.core.words.length + 5888 * w.n ∧
      (∀ q, q ∈ y.core.bad ↔ q ∈ h.core.bad ∨ ∃ j, j < 5888 * w.n ∧ q = 5888 * w.first + j ∧
        ((w.lines.getD (j / 32) (0, false)).2 = true ∨ w.first + j / 5888 ∈ h.lost)) ∧
      y = { h with
        core := { h.core with words := y.core.words, bad := y.core.bad, bot := 5888 * w.first }
        hbmUnits := h.hbmUnits - w.n
        lost := h.lost.filter (· < w.first)
        flush := h.flush.map fun f => { f with live := min f.live (w.first - f.first) }
        win := winAfter })) ∧
  (∀ (b : Nat) (s : State) (w : HodWin) (f : HodFlush) (c : VCmd), b < 768 → (s.brick b).hod.win = some w → w.kind = .up → w.stopped = false →
    0 < w.n → w.n ≤ 8 → s.tb.ct = w.start + 10 + 4 * (w.n - 1) → (s.brick b).hod.flush = some f → f.up = true →
    (s.brick b).var.queue.find? (fun d => d.vs == f.vs) = some c →
    let h := (s.brick b).hod
    let y := (s.windowStep b).brick b
    y.hod = { h with hbmUnits := h.hbmUnits + f.live, deepUnits := h.deepUnits - f.live, flush := none, staged := [], stagedBad := [] } ∧
      field (tget (0 : Word) y.var.vs f.vs).toNat 0 3 = 2 ∧ field (tget (0 : Word) y.var.vs f.vs).toNat 8 4 = 0 ∧ (∀ d ∈ y.var.queue, d.vs ≠ f.vs) ∧
      tget 0 y.var.barriers c.bar = tget 0 (s.brick b).var.barriers c.bar - 1 ∧ y.ring = (s.brick b).ring) ∧
  (∀ (b v : Nat) (s : State) (f : HodFlush) (c : VCmd), b < 768 → (s.brick b).hod.flush = some f →
    (s.brick b).var.queue.find? (fun d => d.vs == v) = some c → c.opc = 11 → c.side = 0 → c.grans.length = (c.size + 4095) / 4096 → c.ports = [] →
    let h := (s.brick b).hod
    ∃ t, exec (.variableDone b v ⟨0, 0⟩) s = .next t ∧ (∀ a, a ≠ b → t.brick a = s.brick a) ∧
      (let y := t.brick b
       y.hod = { h with hbmUnits := h.hbmUnits - f.live, deepUnits := h.deepUnits + f.live, flush := none, staged := [], stagedBad := [] } ∧
        field (tget (0 : Word) y.var.vs v).toNat 0 3 = 2 ∧ field (tget (0 : Word) y.var.vs v).toNat 8 4 = 0 ∧ (∀ d ∈ y.var.queue, d.vs ≠ v) ∧
        tget 0 y.var.barriers c.bar = tget 0 (s.brick b).var.barriers c.bar - 1 ∧ y.ring = (s.brick b).ring) ∧
      t = { s with bricks := t.bricks })

/-- Children arrive, windows decide and move their units, spills and refills move BOT, flushes end. -/
def Obligations.HodChildrenAndWindows : Prop :=
  Rules.HodChildrenArrive ∧ Rules.HodWindowsDecide ∧ Rules.WindowsMoveUnits ∧ Rules.SpillsRaiseBot ∧ Rules.RefillsAndFlushesEnd


namespace Sys2Proof.Rules

/-- The start of a timed command: a register's low half, or an immediate, and imm22, modulo 2^32 (R139). -/
def startOf (s : State) (o : EnOp) : Nat := ((scalarVal s.cur o.b).toNat % 2 ^ 32 + o.imm) % 2 ^ 32

/-- Plan cycles from now to the start, modulo 2^32. -/
def away (s : State) (o : EnOp) : Nat := (startOf s o + 2 ^ 32 - s.cur.seq.pt % 2 ^ 32) % 2 ^ 32

/-- The registers from the one that a names, and the start's, read without error (R168). -/
def wordsSound (s : State) (o : EnOp) (n : Nat) : Bool :=
  !scalarUe s.cur o.b && (List.range n).all fun i => !s.cur.sc.ue.contains (o.a.index + i)

/-- A timed command that occupies the engine for `beats` cycles after its start can be taken: the start is 2 to 2^24 - 1 cycles away,
fewer than 16 are held, and none of them occupies the engine on those cycles (R142, R145). -/
def timely (s : State) (o : EnOp) (beats : Nat) : Bool :=
  decide (2 ≤ away s o ∧ away s o ≤ 16777215 ∧ s.cur.held.length < 16) &&
    s.cur.held.all fun g => decide (s.cur.seq.clk + away s o + beats < g.p ∨ g.occ < s.cur.seq.clk + away s o)

/-- The command is held: it starts at its start, occupies the engine for `beats` cycles more and has its last effect `last` cycles
after its start. -/
def taken (s : State) (o : EnOp) (beats last : Nat) (h : Held) : State :=
  s.onCur fun x => { x with held := x.held ++ [{ h with
    p := s.cur.seq.clk + away s o
    start := startOf s o
    occ := s.cur.seq.clk + away s o + beats
    fin := s.cur.seq.clk + away s o + last }] }

/-- The command of an opcode with the words of the registers from the one that a names. -/
def command (s : State) (o : EnOp) (opc n : Nat) : Held :=
  let w (i : Nat) : Word := if i < n then readS s.cur (o.a.index + i) else 0
  Held.fresh opc (w 0) (w 1) (w 2) s.issue.pc s.issue.issue

/-- Cycles from a beat to the engine, by source kind, and whether a Yard is the brick's own die's (R143). -/
def fetchTime (kind : Nat) (own : Bool) : Nat := if kind = 0 then 3 else if kind = 1 then (if own then 8 else 20) else 2

/-- Cycles from the engine to the destination (R143). -/
def storeTime (kind : Nat) (own : Bool) : Nat :=
  if kind = 0 then 2 else if kind = 1 then (if own then 4 else 12) else if kind = 2 then 4 else 6

/-- A Yard address of the issuing brick's own die. -/
def ownYard (s : State) (addr : Nat) : Bool := addr / 2 ^ 26 == s.issue.brick / 24

/-- A Yard address of a brick's own die. -/
def onDie (b addr : Nat) : Bool := addr / 2 ^ 26 == b / 24

/-- m is the largest of f over the first n numbers. -/
def greatest (n : Nat) (f : Nat → Nat) (m : Nat) : Prop := (∀ k, k < n → f k ≤ m) ∧ ∃ k, k < n ∧ f k = m

/-- The words of a CPY or CPYM are of an admitted shape (R140, R141). -/
def admitted (many : Bool) (h : Held) : Bool :=
  copyShape many h.w2 && sourceWord (shapeSk h.w2) h.w0 (shapeLen h.w2) && destWord (shapeDk h.w2) h.w1 (shapeLen h.w2)

/-- The words of a CPYD are of an admitted shape (R140, R141, R150). -/
def decodable (h : Held) : Bool :=
  decompressShape h.w2 && sourceWord 1 h.w0 (shapeClen h.w2) && ringWord h.w1 (shapeLen h.w2)

/-- An illegal bundle is found in the engine's slot, and nothing else changes (R141, R295, R308). -/
def illegalWords (s t : State) : Prop :=
  t = { s with issue := { s.issue with found := t.issue.found } } ∧ ⟨0x01, 39, []⟩ ∈ t.issue.found ∧ ∀ f ∈ s.issue.found, f ∈ t.issue.found

/-- The result of a translation where there is one. -/
def found (x : Xlate) : Bool := x.cause == 0

/-- The multicast window that a destination word names is the partition's, and holds n lines from the word's offset (R137, R141). -/
def windowOk (s : State) (w : Word) (n : Nat) : Bool :=
  let win := s.window (s.issue.brick / 24) (field w.toNat 0 4)
  win.getLsbD 24 && field win.toNat 25 3 == s.partOf s.issue.brick && decide (n ≤ field win.toNat 48 15 + 1 - field w.toNat 4 15)

/-- The lines of a command that perform at its destination on a plan cycle. -/
def linesDue (h : Held) (lat clk : Nat) : List Fetched := h.got.filter fun g => g.at' + lat == clk

end Sys2Proof.Rules

/-- R40, R139 to R145: CPY and CPYM of an admitted shape, whose addresses translate, are held by the copy engine with their timing,
each line's by its own addresses; CPYD as well, with the time of its decoding; whatever the guard reads, another shape is an illegal
bundle; a false guard takes nothing. (That each line of an extent over two dies takes the timing of its own die is the model's choice: log
entry 134.) -/
def Obligations.CopiesAreHeld : Prop :=
  (∀ (o : EnOp) (s : State), ∀ q ∈ [(Instr.cpy o, 0x10), (Instr.cpym o, 0x11)], guardTrue s.cur o.g = true → wordsSound s o 3 = true →
    let h := command s o q.2 3
    let n := shapeLen h.w2
    let sk := shapeSk h.w2
    let dk := shapeDk h.w2
    admitted (q.2 == 0x11) h = true →
    (sk = 1 → found (copyXlate s h.w0 n false) = true) → (dk = 1 → found (copyXlate s h.w1 n true) = true) →
    (dk = 3 → windowOk s h.w1 n = true) →
    let src := if sk = 1 then (copyXlate s h.w0 n false).addr else h.w0.toNat
    let dst := if dk = 1 then (copyXlate s h.w1 n true).addr else h.w1.toNat
    let beats := (n - 1) / 2
    timely s o beats = true →
    ∃ last, greatest n (fun k => k / 2 + (fetchTime sk (ownYard s (src + 64 * k)) + storeTime dk (ownYard s (dst + 64 * k)))) last ∧
      exec q.1 s = .next (taken s o beats last { h with target := src, part := dst })) ∧
  (∀ (o : EnOp) (s : State), guardTrue s.cur o.g = true → wordsSound s o 3 = true →
    let h := command s o 0x12 3
    let n := shapeLen h.w2
    let size := 512 * 2 ^ shapeSc h.w2
    let x := copyXlate s h.w0 n false
    decodable h = true → found x = true →
    let decode := ((size + shapeN h.w2 - 1) / shapeN h.w2 + 7) / 8 + 4
    ∀ fetched, greatest (shapeClen h.w2) (fun k => k / 2 + fetchTime 1 (ownYard s (x.addr + 64 * k))) fetched →
    let first := fetched + decode + 2
    timely s o (first + (n - 1) / 2 - 2) = true →
    exec (.cpyd o) s = .next (taken s o (first + (n - 1) / 2 - 2) (first + (n - 1) / 2) { h with target := x.addr, part := h.w1.toNat })) ∧
  (∀ (o : EnOp) (s : State),
    (∀ q ∈ [(Instr.cpy o, 0x10), (Instr.cpym o, 0x11)],
      (admitted (q.2 == 0x11) (command s o q.2 3) = false → ∃ t, exec q.1 s = .next t ∧ illegalWords s t) ∧
      (admitted (q.2 == 0x11) (command s o q.2 3) = true → guardTrue s.cur o.g = false → exec q.1 s = .next s)) ∧
    (decodable (command s o 0x12 3) = false → ∃ t, exec (.cpyd o) s = .next t ∧ illegalWords s t) ∧
    (decodable (command s o 0x12 3) = true → guardTrue s.cur o.g = false → exec (.cpyd o) s = .next s))

namespace Sys2Proof.Rules

/-- Lines of a memory are written whole, each with its poison: fresh check bits, and every other byte and mark as it was (R136, R166). -/
def linesWritten (mem mem' : List Host.Cell) (poison poison' ce ce' ue ue' : List Nat) (ls : List (Nat × Line × Bool)) : Prop :=
  (∀ q ∈ ls, readLine mem' (64 * q.1) = q.2.1 ∧ (q.1 ∈ poison' ↔ q.2.2 = true)) ∧
  (∀ a, (∀ q ∈ ls, a < 64 * q.1 ∨ 64 * q.1 + 64 ≤ a) → readByte mem' a = readByte mem a) ∧
  (∀ l, (∀ q ∈ ls, q.1 ≠ l) → (l ∈ poison' ↔ l ∈ poison)) ∧
  (∀ w, w ∈ ce' ↔ w ∈ ce ∧ ∀ q ∈ ls, w / 8 ≠ q.1) ∧ ∀ w, w ∈ ue' ↔ w ∈ ue ∧ ∀ q ∈ ls, w / 8 ≠ q.1

/-- The same of ring memory: its tags, lanes and ports stay. -/
def ringWritten (x y : Ring) (ls : List (Nat × Line × Bool)) : Prop :=
  linesWritten x.mem y.mem x.poison y.poison x.ce y.ce x.ue y.ue ls ∧ y = { x with mem := y.mem, poison := y.poison, ce := y.ce, ue := y.ue }

/-- The same of the Yard: nothing else of the package but bricks changes. -/
def yardWritten (s t : State) (ls : List (Nat × Line × Bool)) : Prop :=
  linesWritten s.yard t.yard s.yardPoison t.yardPoison s.yardCe t.yardCe s.yardUe t.yardUe ls ∧
  t = { s with bricks := t.bricks, yard := t.yard, yardPoison := t.yardPoison, yardCe := t.yardCe, yardUe := t.yardUe }

/-- A late fault 0x04 of a held copy with a cause of R145, for CPFSTAT to record. -/
def copyFails (s : State) (b : Nat) (h : Held) (cause : Nat) (y : Brick) : Prop :=
  ∃ (g : Late) (w : Word), y.trap = { (s.brick b).trap with found := (s.brick b).trap.found ++ [g] } ∧ g.code = 0x04 ∧ g.slot = 39 ∧ g.pc = h.pc ∧
    g.issue = h.issue ∧ g.late = true ∧ g.cycle = s.tb.ct ∧ g.regs = [(0x047, w)] ∧ field w.toNat 0 1 = 1 ∧ field w.toNat 1 3 = cause ∧
    field w.toNat 8 32 = h.start % 2 ^ 32 ∧ field w.toNat 40 24 = s.tb.ct % 2 ^ 24

/-- The lines that the engine reads for a copy: a CPYD's whole declared extent (R142, R150). -/
def copyLines (h : Held) : Nat := if h.opc = 0x12 then shapeClen h.w2 else shapeLen h.w2

/-- A block stands on a channel's read-return path on this cycle under an issue cycle (R89, R147). -/
def standsReturned (s : State) (cr : Nat) (rdx : Bool) (r : RetBlock) : Prop :=
  r.issued % 2 ^ 32 = cr ∧ r.rdx = rdx ∧ r.from' ≤ s.tb.ct ∧ s.tb.ct ≤ r.from' + 63

/-- A token of a substream: a literal of up to 128 bytes, or a byte repeated 3 to 130 times (R149). -/
abbrev Token := List Byte ⊕ (Byte × Nat)

/-- A token that a substream can hold. -/
def tokenOk : Token → Prop
  | .inl bs => 0 < bs.length ∧ bs.length ≤ 128
  | .inr q => 3 ≤ q.2 ∧ q.2 ≤ 130

/-- The bytes of a token, and what it emits (R149). -/
def tokenBytes : Token → List Byte
  | .inl bs => BitVec.ofNat 8 (bs.length - 1) :: bs
  | .inr q => [BitVec.ofNat 8 (128 + (q.2 - 3)), q.1]
def tokenOut : Token → List Byte
  | .inl bs => bs
  | .inr q => List.replicate q.2 q.1

/-- The header of a block with substreams of given lengths (R148). -/
def blockHeader (n sc : Nat) (lens : List Nat) : List Byte :=
  wordBytes 32 (n - 1 + 2 ^ 4 * sc + ((List.range 16).map fun j => 2 ^ (16 + 15 * j) * lens.getD j 0).sum)

/-- Bytes of a substream's share before it, and its length, of n substreams and size class sc (R148). -/
def shareStart (n sc j : Nat) : Nat := j * (512 * 2 ^ sc) / n
def shareLen (n sc j : Nat) : Nat := shareStart n sc (j + 1) - shareStart n sc j

/-- Where a substream that decodes to m bytes of its share fails next, the rest of its bytes given: the code and the offset (R149, R151). -/
def tokenFails (share m at' : Nat) (rest : List Byte) (code off : Nat) : Prop :=
  (rest = [] ∧ m < share ∧ code = 5 ∧ off = at') ∨
  (∃ t more, rest = t :: more ∧ off = at' ∧
    let n := if t.toNat < 128 then t.toNat + 1 else t.toNat - 128 + 3
    let need := if t.toNat < 128 then n else 1
    (more.length < need → code = 6) ∧ (need ≤ more.length → share < m + n ∧ code = 4))

end Sys2Proof.Rules

/-- R143, R165, R147, R89, R150: line k of a copy from the ring or the Yard is read at its read cycle, by its own address's die, and is in
the engine at its beat and the source's time; a take reads its block's lines on its beat, or fails with cause 4 where the block does not stand on
the read-return path; the only command held reads what stands at its computed address, and nothing else of the package changes. -/
def Sys2Proof.Rules.CopyBeatsRead : Prop :=
  (∀ (b k : Nat) (s : State) (h : Held), (s.brick b).held = [h] → (h.opc = 0x10 ∨ h.opc = 0x11 ∨ h.opc = 0x12) → h.cancelled = false → h.stop = none →
    h.got = [] → shapeSk h.w2 ≤ 1 → k < copyLines h →
    let own (j : Nat) : Bool := (h.target + 64 * j) / 2 ^ 26 == b / 24
    let rd (j : Nat) : Nat := if shapeSk h.w2 = 0 then 1 else if own j then 2 else 8
    let ks := (List.range (copyLines h)).filter fun j => j / 2 + rd j == k / 2 + rd k
    (s.brick b).seq.clk = h.p + k / 2 + rd k + 1 →
    (shapeSk h.w2 = 0 → ∀ j ∈ ks, (s.ringRead b (h.target + 64 * j) 64).2.1 = false ∧ markedWords (s.brick b).ring.ce (h.target + 64 * j) 64 = []) →
    (shapeSk h.w2 = 1 → ∀ j ∈ ks, (b, h.p, j, 0) ∉ s.yardRefused ∧ (s.yardRead (h.target + 64 * j)).1.2 = false ∧
      markedWords s.yardCe (h.target + 64 * j) 64 = []) →
    exec (.copyBeat b) s = .next (s.onBrick b fun x => { x with held := [{ h with got := ks.map fun j =>
      ⟨j, (if shapeSk h.w2 = 0 then readLine x.ring.mem (h.target + 64 * j) else readLine s.yard (h.target + 64 * j)), false,
        h.p + j / 2 + fetchTime (shapeSk h.w2) (own j)⟩ }] })) ∧
  (∀ (b k : Nat) (s : State) (h : Held), (s.brick b).held = [h] → (h.opc = 0x10 ∨ h.opc = 0x11) → h.cancelled = false → h.stop = none →
    h.got = [] → shapeSk h.w2 = 2 → k < shapeLen h.w2 → (s.brick b).seq.clk = h.p + k / 2 + 1 →
    let ret := (s.channel (field h.w0.toNat 0 10)).ret
    let stands := standsReturned s (field h.w0.toNat 32 32) (h.w0.getLsbD 10)
    (∀ r ∈ ret, stands r → (∀ q ∈ ret, stands q → q = r) →
      exec (.copyBeat b) s = .next (s.onBrick b fun x => { x with held := [{ h with
        got := ((List.range (shapeLen h.w2)).filter fun j => j / 2 == k / 2).map fun j =>
          ⟨j, (r.lines.getD j (0, false)).1, (r.lines.getD j (0, false)).2, h.p + j / 2 + 2⟩ }] })) ∧
    ((∀ r ∈ ret, ¬ stands r) → ∃ t, exec (.copyBeat b) s = .next t ∧ copyFails s b h 4 (t.brick b) ∧
      t = s.onBrick b fun x => { x with held := [{ h with cancelled := true }], trap := (t.brick b).trap }))

/-- R135, R138, R143, R147, R166: the lines of a copy whose cycle has come are written whole: into the ring, whose lanes, tags and ports stay; into
the Yard, by the die of each line's address, unless their bank refuses them, cause 6; into a write-buffer entry, whose full bit is set with the eighth
line, a full entry being cause 5; or into the same line of every brick that the window's mask names, on one cycle. A copy that has had its
last effect leaves the engine. (A fill whose eight lines come out of order, log entry 143, and a multicast line past the ring's last, log
entry 144, are the model's readings.) -/
def Sys2Proof.Rules.CopyLinesWrite : Prop :=
  ∀ (b : Nat) (s : State) (h : Held), b ∈ s.ran → (s.brick b).held = [h] → (h.opc = 0x10 ∨ h.opc = 0x11) → h.cancelled = false → h.stop = none →
    0 < (s.brick b).seq.clk →
    let clk := (s.brick b).seq.clk - 1
    let left := if h.fin ≤ clk then [] else [h]
    (shapeDk h.w2 = 0 → h.part % 64 = 0 → let due := linesDue h 2 clk
      (due.map Fetched.k).Nodup →
      ∃ t, exec (.copyLineWrite b) s = .next t ∧
        ringWritten (s.brick b).ring (t.brick b).ring (due.map fun g => (h.part / 64 + g.k, g.data, g.poison)) ∧
        t = s.onBrick b fun x => { x with ring := (t.brick b).ring, held := left }) ∧
    (shapeDk h.w2 = 1 → h.part % 64 = 0 →
      let due := h.got.filter fun g => g.at' + storeTime 1 (onDie b (h.part + 64 * g.k)) == clk
      ((due.map Fetched.k).Nodup → (∀ g ∈ due, (b, h.p, g.k, 1) ∉ s.yardRefused) →
        ∃ t, exec (.copyLineWrite b) s = .next t ∧ yardWritten s t (due.map fun g => (h.part / 64 + g.k, g.data, g.poison)) ∧
          t.brick b = { s.brick b with held := left } ∧ ∀ c, c ≠ b → t.brick c = s.brick c) ∧
      (∀ g, due = [g] → (b, h.p, g.k, 1) ∈ s.yardRefused →
        ∃ t, exec (.copyLineWrite b) s = .next t ∧ copyFails s b h 6 (t.brick b) ∧
          t = s.onBrick b fun x => { x with held := [], trap := (t.brick b).trap })) ∧
    (shapeDk h.w2 = 2 →
      let due := linesDue h 4 clk
      let ch := field h.w1.toNat 0 10
      let e := field h.w1.toNat 10 6
      let entry (u : State) : WEntry := tget ⟨List.replicate 8 (0, false), false⟩ (u.channel ch).wbuf e
      due ≠ [] →
      ((entry s).full = false → (due.map Fetched.k).Nodup → (∀ g ∈ due, g.k < 8) → (entry s).lines.length = 8 →
        ∃ t, exec (.copyLineWrite b) s = .next t ∧ (∀ g ∈ due, (entry t).lines[g.k]? = some (g.data, g.poison)) ∧
          (∀ k, (∀ g ∈ due, g.k ≠ k) → (entry t).lines[k]? = (entry s).lines[k]?) ∧
          ((entry t).full = true ↔ h.got.length = 8 ∧ ∀ g ∈ h.got, g.at' + 4 ≤ clk) ∧
          (∀ i, i ≠ e → tget ⟨List.replicate 8 (0, false), false⟩ (t.channel ch).wbuf i = tget ⟨List.replicate 8 (0, false), false⟩ (s.channel ch).wbuf i) ∧
          t.channel ch = { s.channel ch with wbuf := (t.channel ch).wbuf } ∧ (∀ c, c ≠ ch → t.channel c = s.channel c) ∧
          t = { s.onBrick b fun x => { x with held := left } with channels := t.channels }) ∧
      ((entry s).full = true →
        ∃ t, exec (.copyLineWrite b) s = .next t ∧ copyFails s b h 5 (t.brick b) ∧
          t = s.onBrick b fun x => { x with held := [], trap := (t.brick b).trap })) ∧
    (3 ≤ shapeDk h.w2 →
      let due := linesDue h 6 clk
      let win := s.window (b / 24) (field h.w1.toNat 0 4)
      let target (c : Nat) : Prop := c / 24 = b / 24 ∧ win.getLsbD (c % 24) = true
      let ls := due.map fun g => ((field win.toNat 32 15 + field h.w1.toNat 4 15 + g.k) % 32768, g.data, g.poison)
      (due.map Fetched.k).Nodup → (∀ g ∈ due, g.k < 32768) →
      ∃ t, exec (.copyLineWrite b) s = .next t ∧ t = { s with bricks := t.bricks } ∧
        (∀ c, target c → ringWritten (s.brick c).ring (t.brick c).ring ls) ∧ (∀ c, ¬ target c → (t.brick c).ring = (s.brick c).ring) ∧
        ∀ c, t.brick c = { s.brick c with ring := (t.brick c).ring, held := if c = b then left else (s.brick c).held })

/-- R148, R149, R151: a block whose substreams hold tokens that fill their shares decodes to what they emit; a header with reserved bits, or
SC above 5, is code 1, one that differs from the shape word code 2, one whose lengths do not fit code 3; the lowest substream that fails gives
code, substream, offset and the first byte that is not output. (The substream of codes 1 to 3 is the model's choice: log entry 160.) -/
def Sys2Proof.Rules.BlocksDecode : Prop :=
  (∀ (n sc clen : Nat) (streams : List (List Token)) (pad : List Byte), streams.length = n → 0 < n → n ≤ 16 → sc ≤ 5 →
    let bytes (ts : List Token) : List Byte := ts.flatMap tokenBytes
    let lens := streams.map fun ts => (bytes ts).length
    (∀ ts ∈ streams, (∀ t ∈ ts, tokenOk t) ∧ (bytes ts).length < 2 ^ 15) → 32 + lens.sum ≤ 64 * clen →
    (∀ j ts, streams[j]? = some ts → (ts.flatMap tokenOut).length = shareLen n sc j) →
    let d := decodeBlock (blockHeader n sc lens ++ streams.flatMap bytes ++ pad) n sc clen
    d.code = 0 ∧ d.bytes = streams.flatMap fun ts => ts.flatMap tokenOut) ∧
  (∀ (n sc clen : Nat) (src : List Byte), 0 < n → n ≤ 16 →
    let hdr := bytesWord (src.take 32)
    let len (j : Nat) := field hdr (16 + 15 * j) 15
    let one := field hdr 8 8 ≠ 0 ∨ 5 < field hdr 4 4
    let two := field hdr 0 4 + 1 ≠ n ∨ field hdr 4 4 ≠ sc
    let three := (∃ j, n ≤ j ∧ j < 16 ∧ len j ≠ 0) ∨ 64 * clen < 32 + ((List.range n).map len).sum
    let d := decodeBlock src n sc clen
    (one → d.code = 1 ∧ d.sub = 0 ∧ d.off = 0) ∧ (¬ one → two → d.code = 2 ∧ d.sub = 0 ∧ d.off = 0) ∧
      (¬ one → ¬ two → three → d.code = 3 ∧ d.sub = 0 ∧ d.off = 0) ∧ (¬ one → ¬ two → ¬ three → d.code = 0 ∨ (4 ≤ d.code ∧ d.code ≤ 6))) ∧
  (∀ (n sc clen code off : Nat) (good : List (List Token)) (ts : List Token) (rest : List Byte) (later : List (List Byte)) (pad : List Byte),
    good.length + 1 + later.length = n → n ≤ 16 → sc ≤ 5 →
    let bytes (ts : List Token) : List Byte := ts.flatMap tokenBytes
    let streams := good.map bytes ++ [bytes ts ++ rest] ++ later
    let lens := streams.map List.length
    let j := good.length
    (∀ us ∈ ts :: good, ∀ t ∈ us, tokenOk t) → (∀ l ∈ lens, l < 2 ^ 15) → 32 + lens.sum ≤ 64 * clen →
    (∀ i us, good[i]? = some us → (us.flatMap tokenOut).length = shareLen n sc i) → (ts.flatMap tokenOut).length ≤ shareLen n sc j →
    tokenFails (shareLen n sc j) (ts.flatMap tokenOut).length (32 + (lens.take j).sum + (bytes ts).length) rest code off →
    let d := decodeBlock (blockHeader n sc lens ++ streams.flatten ++ pad) n sc clen
    d.code = code ∧ d.sub = j ∧ d.off = off ∧ d.bad = shareStart n sc j ∧
      d.bytes.take (shareStart n sc j) = good.flatMap fun us => us.flatMap tokenOut)

/-- R150, R151: the lines of a CPYD perform two a cycle from W0 on: the decoded bytes, then zeros; where its block is malformed those from the
failing share's first line on, or all of them, are poisoned, and one record of kind 0x21 enters at W0. -/
def Sys2Proof.Rules.BlocksPerform : Prop :=
  ∀ (b : Nat) (s : State) (h : Held), b ∈ s.ran → (s.brick b).held = [h] → h.opc = 0x12 → h.cancelled = false → h.part % 64 = 0 →
    0 < (s.brick b).seq.clk → h.got.map Fetched.k = List.range (shapeClen h.w2) →
    let clk := (s.brick b).seq.clk - 1
    let decode := ((512 * 2 ^ shapeSc h.w2 + shapeN h.w2 - 1) / shapeN h.w2 + 7) / 8 + 4
    ∀ fetched, greatest (shapeClen h.w2) (fun k => k / 2 + fetchTime 1 (onDie b (h.target + 64 * k))) fetched →
    let w0 := h.p + fetched + decode + 2
    let d := decodeBlock (h.got.flatMap fun g => lineBytes g.data) (shapeN h.w2) (shapeSc h.w2) (shapeClen h.w2)
    let ks := (List.range (shapeLen h.w2)).filter fun k => w0 + k / 2 == clk
    let bad (k : Nat) : Bool := d.code ≠ 0 && (d.code ≤ 3 || d.bad / 64 ≤ k)
    let line (k : Nat) : Line := if bad k then poisonLine else bytesLine ((List.range 64).map fun i => d.bytes.getD (64 * k + i) 0)
    ∃ t, exec (.copyLineWrite b) s = .next t ∧
      ringWritten (s.brick b).ring (t.brick b).ring (ks.map fun k => (h.part / 64 + k, line k, bad k)) ∧
      ((d.code = 0 ∨ clk ≠ w0) → (t.brick b).pollenNew = (s.brick b).pollenNew) ∧
      (d.code ≠ 0 → clk = w0 → ∃ r, (t.brick b).pollenNew = (s.brick b).pollenNew ++ [(39, r)] ∧ field r.toNat 0 8 = 0x21 ∧ field r.toNat 8 6 = 39 ∧
        field r.toNat 16 34 = h.pc % 2 ^ 34 ∧ field r.toNat 50 8 = h.issue % 2 ^ 8 ∧ field r.toNat 58 4 = 0 ∧
        (d.code < 16 → d.sub < 16 → field r.toNat 64 4 = d.code ∧ field r.toNat 68 4 = d.sub ∧ field r.toNat 72 24 = 0 ∧
          field r.toNat 96 32 = d.off % 2 ^ 32)) ∧
      t = s.onBrick b fun x => { x with ring := (t.brick b).ring, pollenNew := (t.brick b).pollenNew, held := if h.fin ≤ clk then [] else [h] }

/-- A copy's beats read and its lines write, each line by the die of its own address (the model's choice: log entry 134); a compressed block
decodes and its lines perform. -/
def Obligations.CopiesMove : Prop := Rules.CopyBeatsRead ∧ Rules.CopyLinesWrite ∧ Rules.BlocksDecode ∧ Rules.BlocksPerform

namespace Sys2Proof.Rules

/-- The Course cycle on which the start falls at the brick's present lag (R347). -/
def startCourse (s : State) (o : EnOp) : Nat := s.tb.ct + away s o

/-- The departure: the Course cycle after now on which A_out less LP falls, taken modulo 2^32 (R342, R347). -/
def departure (s : State) (o : EnOp) (h : Held) : Nat :=
  let d := (h.aOut + 2 ^ 32 - s.lp h.dstRank % 2 ^ 32) % 2 ^ 32
  startCourse s o + (d + 2 ^ 32 - startCourse s o % 2 ^ 32) % 2 ^ 32

/-- The port slots of a command that sends: that of its departure and, of a critical one, its retry's (R341). -/
def portSlots (s : State) (o : EnOp) (h : Held) : List (Nat × Nat) :=
  if h.sends then (s.portTo h.dstRank, departure s o h) ::
    (if h.crit then [(s.portTo h.dstRank, departure s o h + 2 * s.lp h.dstRank + 8)] else []) else []

/-- The only command that the engine of a brick holds. -/
def holdsOnly (s : State) (b : Nat) (h : Held) : Prop := (s.brick b).held = [h]

/-- The brick with its one held command changed. -/
def holding (s : State) (b : Nat) (h : Held) : State := s.onBrick b fun x => { x with held := [h] }

/-- A sender that writes no line into its ring and makes no record: its flit is its last effect. -/
def onlySends (h : Held) : Bool := !h.wr && !h.isCred

/-- The bytes that a port admits in the two frame columns of a 5-cycle slot (R406). -/
def admits (s : State) (port c : Nat) : Bool := slotAdmitted (tget 0 s.mason.admitReg port) c

end Sys2Proof.Rules

/-- R342, R343, R347: a link or collective command whose words are admitted, whose peers are known, whose lines are ready in time and
whose slots are free is held, and claims its slots; one whose words are not admitted is an illegal bundle, a collective's whatever its
guard reads (R40). (That the peer's word of an LSEND or LRECV is not looked at under a false guard is the model's reading: log entry 22.) -/
def Obligations.LinkCommandsAreHeld : Prop :=
  ∀ (o : EnOp) (s : State),
    ∀ q ∈ [(Instr.lsend o, 0x20, 2), (Instr.lrecv o, 0x21, 2), (Instr.credF32 o, 0x30, 3), (Instr.credBf16 o, 0x31, 3),
      (Instr.cbcast o, 0x32, 3), (Instr.cgath o, 0x33, 3)],
    let h := command s o q.2.1 q.2.2
    let beats := (h.count - 1) / 2
    (guardTrue s.cur o.g = true → wordsSound s o q.2.2 = true → linkWords h = true → timely s o (beats + 1) = true →
      (h.sends = true → s.peerOk h.dstRank = true) → (h.takes = true → s.peerOk h.srcRank = true) →
      (h.sends = true → startCourse s o + beats + 16 ≤ departure s o h ∧ departure s o h < startCourse s o + 2 ^ 31) →
      (portSlots s o h).any s.slotTaken = false →
      exec q.1 s = .next ((taken s o (beats + 1) (beats + 8) { h with course := departure s o h, done := !h.sends }).onCur fun x =>
        { x with portClaims := x.portClaims ++ portSlots s o h })) ∧
    (linkWords h = false → (guardTrue s.cur o.g = true ∧ wordsSound s o q.2.2 = true) ∨ (guardTrue s.cur o.g = false ∧ q.2.2 = 3) →
      exec q.1 s = .next (s.foundAt 0x01 39)) ∧
    (guardTrue s.cur o.g = false → linkLocal h = false → exec q.1 s = .next (s.foundAt 0x01 39)) ∧
    (guardTrue s.cur o.g = false → linkWords h = true → exec q.1 s = .next s)

/-- R347 cause 4, R341, R406: ten cycles before its departure a command whose lines will be ready goes on, and one whose lines lag
takes a course slip; at its departure, in admitted columns, its flit leaves, and with it a command that has no effect left (R342). -/
def Sys2Proof.Rules.FlitsDepart : Prop :=
  (∀ (b : Nat) (s : State) (h : Held), b < 768 → holdsOnly s b h → h.sends = true → h.cancelled = false → h.course = s.tb.ct + 10 →
    let now := (s.brick b).seq.clk - 1
    (h.p + (h.count - 1) / 2 + 6 ≤ now → exec (.senderReadyCheck b) s = .next s) ∧
    (now < h.p + (h.count - 1) / 2 + 6 → exec (.senderReadyCheck b) s =
      .next ((holding s b { h with cancelled := true }).courseSlip b 63 [(0x02A, lnfWord s 4 h.opc h.dstRank)] true))) ∧
  (∀ (b : Nat) (s : State) (h : Held), b < 768 → holdsOnly s b h → h.sends = true → h.cancelled = false → h.done = false → h.course = s.tb.ct →
    let port := s.portTo h.dstRank
    admits s port s.tb.ct = true → (h.crit = true → admits s port (s.tb.ct + 2 * s.lp h.dstRank + 8) = true) →
    ∃ f : Flit, f.port = port ∧ f.srcRank = s.rank ∧ f.dstRank = h.dstRank ∧ f.dstBrick = h.dstBrick ∧ f.arrive = h.aOut ∧
      f.crit = h.crit ∧ f.retry = false ∧ f.crcOk = true ∧ f.lines.length = h.count ∧
      (h.opc = 0x20 → ∀ k, k < h.count → f.lines.getD k 0 = h.gotAt k) ∧
      (h.isCred = true → ∀ k, k < h.count → f.lines.getD k 0 = (h.sumAt k).data) ∧
      let left := !h.crit && (decide (h.fin ≤ (s.brick b).seq.clk - 1) || onlySends h)
      exec (.flitDeparture b) s =
        .next { s.onBrick b fun x => { x with held := if left then [] else [{ h with done := true }] } with
          out := s.out ++ [.flit s.tb.ct (s.lp h.dstRank) f] })

/-- R341, R345, R346: a sound flit of a known source on its own port waits in the landing buffer; one that comes after its A, or a retry
after A + Rt, has failed (the model's choice: log entry 150). A critical one that fails sends a NAK at A + 1, which makes the sender send it
again at D + Rt; copies and landed flits leave when their time is over. R388: a parked task's flit departs on its cycle, or its command takes
the course slip of cause 4, in the task's image (the model's choice, of the slip's place and its notice: log entry 152). -/
def Sys2Proof.Rules.FlitsArriveAndRetry : Prop :=
  (∀ (f : Flit) (s : State), s.peerOk f.srcRank = true → f.port = s.portTo f.srcRank →
    let past := (s.tb.ct % 2 ^ 32 + 2 ^ 32 - (f.arrive + (if f.retry then 2 * s.lp f.srcRank + 8 else 0)) % 2 ^ 32) % 2 ^ 32
    let room := decide ((s.landing.filter fun g => g.port = f.port).length < 32 ∧ ¬ (0 < past ∧ past < 2 ^ 31))
    (f.crcOk = true → room = true → exec (.flitArrival f) s = .next { s with landing := s.landing ++ [f] }) ∧
    ((f.crcOk = false ∨ room = false) → f.crit = true → f.retry = false →
      let a := (f.arrive + 2 ^ 32 - s.tb.ct % 2 ^ 32) % 2 ^ 32
      a < 2 ^ 31 → exec (.flitArrival f) s =
        .next { s with out := s.out ++ [.nak f.port f.srcRank (f.arrive % 2 ^ 32) (s.tb.ct + a + 1)] }) ∧
    ((f.crcOk = false ∨ room = false) → (f.crit = false ∨ f.retry = true) → exec (.flitArrival f) s = .next s)) ∧
  (∀ (f : Flit) (s : State), (s.peerOk f.srcRank = false ∨ f.port ≠ s.portTo f.srcRank) → exec (.flitArrival f) s = .next s) ∧
  (∀ (b : Nat) (s : State) (h : Held), b < 768 → holdsOnly s b h → h.takes = true → h.critIn = true → h.cancelled = false →
    h.aIn = s.tb.ct % 2 ^ 32 → s.heldFlit h = none →
    Out.nak (s.portTo h.srcRank) h.srcRank h.aIn (s.tb.ct + 1) ∉ s.out →
    exec (.flitAbsent b) s = .next { s with out := s.out ++ [.nak (s.portTo h.srcRank) h.srcRank h.aIn (s.tb.ct + 1)] }) ∧
  (∀ (r a : Nat) (s : State), ∃ t, exec (.nakArrival r a) s = .next t ∧
    (let asked := fun h : Held =>
      if h.sends = true ∧ h.crit = true ∧ h.dstRank = r ∧ h.aOut = a % 2 ^ 32 then { h with nak := true } else h
     (∀ b, (t.brick b).held = (s.brick b).held.map asked) ∧
     (∀ k b x, b < 768 → (s.task k).savedBrick b = some x → ∃ y, (t.task k).savedBrick b = some y ∧ y.held = x.held.map asked)) ∧
    ((∀ q ∈ s.bricks, q.1 < 768) → (∀ q ∈ s.tasks, q.2.saved = []) → t = { s with bricks := t.bricks })) ∧
  (∀ (k b : Nat) (s : State) (x : Brick) (h : Held), b < 768 → (s.task k).savedBrick b = some x → x.held = [h] → h.sends = true →
    h.cancelled = false → let n := 768 * (k + 1) + b
    (h.course = s.tb.ct + 10 → x.seq.clk - 1 < h.p + (h.count - 1) / 2 + 6 → ∃ t y, exec (.senderReadyCheck n) s = .next t ∧
      (t.task k).savedBrick b = some y ∧ y.held = [{ h with cancelled := true }] ∧
      (∃ f, y.trap.found = x.trap.found ++ [f] ∧ f.code = 0x0C ∧ f.slot = 63 ∧ f.cycle = s.tb.ct) ∧
      ((s.task k).steptag ≠ 0 → Out.notice (s.task k).steptag s.rank s.tb.ct ∈ t.out)) ∧
    (h.done = false → h.course = s.tb.ct → admits s (s.portTo h.dstRank) s.tb.ct = true →
      (h.crit = true → admits s (s.portTo h.dstRank) (s.tb.ct + 2 * s.lp h.dstRank + 8) = true) →
      ∃ t y f, exec (.flitDeparture n) s = .next t ∧ (t.task k).savedBrick b = some y ∧
        y.held = (if !h.crit && (decide (h.fin ≤ x.seq.clk - 1) || onlySends h) then [] else [{ h with done := true }]) ∧
        Out.flit s.tb.ct (s.lp h.dstRank) f ∈ t.out ∧ f.arrive = h.aOut ∧ f.dstBrick = h.dstBrick ∧ f.lines.length = h.count)) ∧
  (∀ (b : Nat) (s : State) (h : Held), b < 768 → holdsOnly s b h → h.sends = true → h.crit = true → h.done = true → h.cancelled = false →
    h.nak = true → h.course + 2 * s.lp h.dstRank + 8 = s.tb.ct →
    let port := s.portTo h.dstRank
    admits s port s.tb.ct = true →
    ∃ f : Flit, f.retry = true ∧ f.arrive = h.aOut ∧ f.lines.length = h.count ∧
      exec (.flitRetry b) s = .next { s with
        out := s.out ++ [.flit s.tb.ct (s.lp h.dstRank) f]
        mason := { s.mason with retryCount := tput 0 s.mason.retryCount port (satAdd32 (tget 0 s.mason.retryCount port) 1) } }) ∧
  (∀ (b : Nat) (s : State) (h : Held), b < 768 → holdsOnly s b h → h.sends = true → h.crit = true → h.done = true →
    h.course + 2 * s.lp h.dstRank + 8 + 4 ≤ s.tb.ct → (h.fin < (s.brick b).seq.clk ∨ onlySends h = true) →
    exec (.retrySlotEnd b) s = .next (s.onBrick b fun x => { x with held := [] })) ∧
  (∀ (s : State), ∃ t, exec .takeWindowEnd s = .next t ∧ t = { s with landing := t.landing } ∧
    ∀ f : Flit,
      (f ∈ t.landing ↔ f ∈ s.landing ∧
        (let last := f.arrive + (if f.crit then 2 * s.lp f.srcRank + 8 else 0) + 63
         let past := (s.tb.ct + 2 ^ 32 - last % 2 ^ 32) % 2 ^ 32
         2 ^ 31 ≤ past)))

/-- Flits depart, arrive and are sent again. -/
def Obligations.Flits : Prop := Rules.FlitsDepart ∧ Rules.FlitsArriveAndRetry

/-- R342 to R344: a line that a link command takes for its ring is written at its beat and 8 cycles, at the address of its local word
and 64 k, and every other byte of the ring reads as before. -/
def Sys2Proof.Rules.TakenLinesWrite : Prop :=
  ∀ (b : Nat) (s : State) (h : Held), b ∈ s.ran → holdsOnly s b h → h.opc = 0x21 ∨ h.opc = 0x32 → h.wr = true → h.cancelled = false →
    h.addr % 64 = 0 → h.addr + 64 * h.count ≤ 2 ^ 21 → 0 < (s.brick b).seq.clk →
    let clk := (s.brick b).seq.clk - 1
    let ks := (List.range h.count).filter fun k => h.p + k / 2 + 8 == clk
    ∃ t, exec (.copyLineWrite b) s = .next t ∧
      (∀ k ∈ ks, readLine (t.brick b).ring.mem (h.addr + 64 * k) = h.gotAt (100 + k)) ∧
      (∀ a, (∀ k ∈ ks, a < h.addr + 64 * k ∨ h.addr + 64 * k + 64 ≤ a) →
        readByte (t.brick b).ring.mem a = readByte (s.brick b).ring.mem a) ∧
      t = s.onBrick b fun x => { x with ring := (t.brick b).ring, held := (t.brick b).held }


/-- R348 to R350, R352: a line of a CRED is summed once, when it is ready 6 cycles after its beat, element by element and rounded under
R233 with the word of R234 or R235 (log entry 119); the sum is what the ring receives 8 cycles after the beat; the record of a one-line hop
with an event counts its elements, element 0 once; a CRED.F32 with NORM sets
NRM and NRMST on the write cycle of its line 0, unless an MTSR to NRM performs on that cycle. -/
def Sys2Proof.Rules.CollectivesReduce : Prop :=
  (∀ (b k : Nat) (s : State) (h : Held), holdsOnly s b h → h.isCred = true → h.cancelled = false → k < h.count →
    (s.brick b).seq.clk = h.p + k / 2 + 7 → (∀ g ∈ h.sums, g.k ≠ k) →
    let w := if h.opc = 0x30 then 32 else 16
    let f : BinFmt := if h.opc = 0x30 then f32 else bf16
    let seed := ((sysGet (s.brick b) 0x02B).toNat % 2 ^ 32) ^^^ s.steptag b
    let x (e : Nat) := (h.addr + 64 * k) / (w / 8) + e
    let sum (e : Nat) : Nat × Events :=
      credElem f (if s.rankCount ≤ 64 then fun _ => ditherWord seed h.hop (x e) else hashWord seed h.hop)
        (elem w (h.gotAt k) e) (elem w (h.gotAt (100 + k)) e)
    ∃ h', ((s.linkSums b h).brick b).held = [h'] ∧ (h'.sumAt k).k = k ∧
      (∀ e, e < 512 / w → elem w (h'.sumAt k).data e = (sum e).1 % 2 ^ w) ∧ (h'.sumAt k).first = (sum 0).2.any ∧
      (h'.sumAt k).count = ((List.range (512 / w)).filter fun e => (sum e).2.any).length) ∧
  (∀ (b : Nat) (s : State) (h : Held), b ∈ s.ran → holdsOnly s b h → h.isCred = true → h.cancelled = false → h.count = 1 →
    h.ev = .none → h.evLines = 0 → h.evCount = 0 → (s.brick b).seq.clk = h.p + 9 →
    let g := h.sumAt 0
    let root : Events := if h.norm then h.root.2 else .none
    let n := if root.any && !g.first then g.count + 1 else g.count
    ∃ t, exec (.copyLineWrite b) s = .next t ∧
      ((g.ev.or root).any = true → (t.brick b).pollenNew = (s.brick b).pollenNew ++ [(39,
        pollenRec 0x03 39 h.pc h.issue (g.ev.or root) (BitVec.ofNat 64 (1 + h.hop * 2 ^ 8 + n * 2 ^ 32)))]) ∧
      ((g.ev.or root).any = false → (t.brick b).pollenNew = (s.brick b).pollenNew)) ∧
  (∀ (b : Nat) (s : State) (h : Held), b ∈ s.ran → holdsOnly s b h → h.isCred = true → h.wr = true → h.cancelled = false →
    h.addr % 64 = 0 → h.addr + 64 * h.count ≤ 2 ^ 21 → 0 < (s.brick b).seq.clk →
    let ks := (List.range h.count).filter fun k => h.p + k / 2 + 9 == (s.brick b).seq.clk
    ∃ t, exec (.copyLineWrite b) s = .next t ∧
      (∀ k ∈ ks, readLine (t.brick b).ring.mem (h.addr + 64 * k) = (h.sumAt k).data) ∧
      (∀ a, (∀ k ∈ ks, a < h.addr + 64 * k ∨ h.addr + 64 * k + 64 ≤ a) →
        readByte (t.brick b).ring.mem a = readByte (s.brick b).ring.mem a)) ∧
  (∀ (b : Nat) (s : State) (h : Held), h.isCred = true → h.norm = true → h.cancelled = false →
    (s.brick b).seq.clk = h.p + 9 →
    let e0 := elem 32 (h.sumAt 0).data 0
    ((∀ m ∈ (s.brick b).mtsr, m.1 ≠ 0x026) → ∃ t, s.linkNorm b h = t ∧
      sysGet (t.brick b) 0x026 = BitVec.ofNat 64
        ((if (f32.unpack e0).isNan then f32.nanBits else (sqrtF32 e0).1) + s.steptag b * 2 ^ 32) ∧
      sysGet (t.brick b) 0x027 = BitVec.ofNat 64 (1 + s.tb.ct % 2 ^ 32 * 2 ^ 32) ∧
      (∀ n, n ≠ 0x026 → n ≠ 0x027 → sysGet (t.brick b) n = sysGet (s.brick b) n) ∧
      t = s.onBrick b fun x => { x with sys := (t.brick b).sys }) ∧
    (∀ m ∈ (s.brick b).mtsr, m.1 = 0x026 → s.linkNorm b h = s))

/-- The lines that link commands write, and the reductions. -/
def Obligations.LinkLinesWrite : Prop := Rules.TakenLinesWrite ∧ Rules.CollectivesReduce


namespace Sys2Proof.Rules

/-- The atomic and row operations with their opcodes (R295). -/
def atomicRows (o : EnOp) : List (Instr × Nat) :=
  [(.aaddI32 o, 0x50), (.aaddF32 o, 0x51), (.aaddBf16 o, 0x52), (.amaxI32 o, 0x53), (.amaxF32 o, 0x54), (.aminI32 o, 0x55),
   (.aminF32 o, 0x56), (.axor o, 0x57), (.arowadd o, 0x58), (.rowld o, 0x59), (.rowldf o, 0x5A)]

/-- A row command, and one that reads (R295). -/
def isRow (opc : Nat) : Bool := 0x58 ≤ opc
def readsRow (opc : Nat) : Bool := opc == 0x59 || opc == 0x5A

/-- The translation of a command's target: HBM, and for a row command not the version's column (R118, R295). -/
def atomicTarget (s : State) (opc : Nat) (h : Held) : Xlate :=
  translate (s.part (s.partOf s.issue.brick)) h.w0.toNat (64 * h.atomicLines) (readsRow opc) (!readsRow opc) timedTarget fun k a =>
    k != 0 || (isRow opc && (placeOf a).col == 3)

/-- Element i of a line of operands as it enters (R298). -/
def entering (cls : Nat) (d : Line) (i : Nat) : Nat := enterElem cls (elem (classWidth cls) d i)

/-- What stands for an element merges with an operand of its class (R298). -/
def merged (cls a d : Nat) : Nat :=
  match cls with
  | 0x50 => (a + d) % 2 ^ 32
  | 0x51 => (f32.add a d).1
  | 0x52 => (f32.add a d).1
  | 0x53 => if (BitVec.ofNat 32 a).toInt < (BitVec.ofNat 32 d).toInt then d else a
  | 0x54 => (f32.minmax true a d).1
  | 0x55 => if (BitVec.ofNat 32 d).toInt < (BitVec.ofNat 32 a).toInt then d else a
  | 0x56 => (f32.minmax false a d).1
  | _ => a ^^^ d

/-- The element that an application makes of the old one: a BF16 sum with its F32 shadow is rounded once (R298). -/
def applied (cls old acc : Nat) : Nat :=
  if cls = 0x52 then
    let r := sumVals [bf16.unpack old, f32.unpack acc]
    (bf16.pack false r.1 r.2).1
  else merged cls old acc

/-- A line of the block after its application (R298). -/
def appliedLine (q : LineOp) (old new : Line) : Prop :=
  q.acc.length = 512 / classWidth q.cls → ∀ i, i < 512 / classWidth q.cls →
    elem (classWidth q.cls) new i = applied q.cls (elem (classWidth q.cls) old i) (q.acc.getD i 0) % 2 ^ classWidth q.cls

/-- Lines stand in HBM from an address on, and every other byte reads as before. -/
def storedAt (s t : State) (base : Nat) (new : List (Line × Bool)) : Prop :=
  (∀ k, k < 8 → readLine t.hbm (base + 64 * k) = (new.getD k (0, false)).1) ∧
    ∀ a, a < base ∨ base + 512 ≤ a → readByte t.hbm a = readByte s.hbm a

/-- The delta of a write to a stripe that keeps parity waits in its parity stack's channel (R99). -/
def deltaWaits (s t : State) (pch : Nat) (e : AtomicEntry) (col : Nat) : Prop :=
  let ch := pch % 32
  let par := 32 * parityStack e.row ch + ch
  s.takesDelta ch e.bank e.row = true → par ≠ pch →
    ∃ d ∈ (t.channel par).parity, d.bank = e.bank ∧ d.row = e.row ∧ d.col = col ∧ d.read = false

/-- The line of the block that a command's operand line k is for (R295). -/
def lineFor (h : Held) (k : Nat) : Nat := if isRow h.opc then k else h.target % 512 / 64

end Sys2Proof.Rules

/-- R40, R295, R296: an atomic or row command of admitted words, to a block of HBM, is held with the start that its application counts
from; whatever the guard reads, other words are an illegal bundle, and under a false guard admitted words do nothing. -/
def Obligations.AtomicCommandsAreHeld : Prop :=
  ∀ (o : EnOp) (s : State), ∀ q ∈ atomicRows o,
    let h := command s o q.2 2
    let l := h.atomicLines
    let last := if readsRow q.2 then 0 else (l - 1) / 2 + 1
    (guardTrue s.cur o.g = true → wordsSound s o 2 = true → atomicWords h = true → found (atomicTarget s q.2 h) = true →
      timely s o last = true → exec q.1 s = .next (taken s o last last
        { h with target := (atomicTarget s q.2 h).addr, course := s.cur.seq.pt + away s o })) ∧
    (atomicWords h = false → ∃ t, exec q.1 s = .next t ∧ illegalWords s t) ∧
    (atomicWords h = true → guardTrue s.cur o.g = false → exec q.1 s = .next s)

/-- R296 to R298: a command enters its channel's queue at P + 12 with the application cycle S = C0 + P + 64 and claims its slot. It
opens an entry that holds its operands element by element, or merges them element by element into the entry that is open for its block; a
row read only claims. -/
def Sys2Proof.Rules.AtomicsEnter : Prop :=
  ∀ (b : Nat) (s : State) (h : Held), holdsOnly s b h → 0x50 ≤ h.opc → h.opc ≤ 0x5A → h.cancelled = false → h.done = false →
    (s.brick b).seq.clk = h.p + 13 →
    let at' := (s.brick b).seq.c0 + h.course + 64
    let p := s.homePlace h.target
    let n := if h.opc = 0x58 then 16 else 8
    let task := ((s.brick b).task).getD 0
    let same (e : AtomicEntry) : Bool := decide (e.bank = p.bank ∧ e.row = p.row ∧ e.col = p.col ∧ e.read = false)
    let before := (s.channel p.channel).atomics
    let cls := atomicClass h.opc
    s.tb.ct < at' → s.slotBroken task p.channel at' n = 0 →
    (∀ e, before.find? same = some e → ∀ k, k < h.atomicLines → ∀ q, tfind e.ops (lineFor h k) = some q → q.cls = cls) →
    ∃ t, exec (.atomicEntry b) s = .next t ∧
      (t.brick b).held = [{ h with course := at', done := true }] ∧
      (t.channel p.channel).aslots = (s.channel p.channel).aslots ++ [(at', n)] ∧
      (∀ c, c ≠ p.channel → t.channel c = s.channel c) ∧ t = { s with bricks := t.bricks, channels := t.channels } ∧
      (readsRow h.opc = true → (t.channel p.channel).atomics = before) ∧
      (readsRow h.opc = false → before.find? same = none → ∃ e, (t.channel p.channel).atomics = before ++ [e] ∧
        e.bank = p.bank ∧ e.row = p.row ∧ e.col = p.col ∧ e.s = at' ∧ e.read = false ∧ e.task = task ∧
        e.version = (if h.opc = 0x58 then 1 else 0) ∧ e.cmds = [⟨b, task, h.opc, h.pc, h.issue, h.p⟩] ∧
        ∀ k, k < h.atomicLines → isRow h.opc = true ∨ k = 0 → ∃ q, tfind e.ops (lineFor h k) = some q ∧ q.cls = cls ∧
          q.acc = (List.range (512 / classWidth cls)).map (entering cls (h.gotAt k))) ∧
      (readsRow h.opc = false → ∀ e, before.find? same = some e → ∃ f ∈ (t.channel p.channel).atomics, same f = true ∧ f.s = e.s ∧
        f.cmds = e.cmds ++ [⟨b, task, h.opc, h.pc, h.issue, h.p⟩] ∧ f.version = e.version + (if h.opc = 0x58 then 1 else 0) ∧
        (∀ k, k < h.atomicLines → isRow h.opc = true ∨ k = 0 → ∃ q, tfind f.ops (lineFor h k) = some q ∧ q.cls = cls ∧
          (tfind e.ops (lineFor h k) = none → q.acc = (List.range (512 / classWidth cls)).map (entering cls (h.gotAt k))) ∧
          ∀ o, tfind e.ops (lineFor h k) = some o → o.acc.length = 512 / classWidth cls → q.acc.length = 512 / classWidth cls ∧
            ∀ i, i < 512 / classWidth cls → q.acc.getD i 0 = merged cls (o.acc.getD i 0) (entering cls (h.gotAt k) i)) ∧
        ∀ l, (∀ k, k < h.atomicLines → lineFor h k ≠ l) → tfind f.ops l = tfind e.ops l)

/-- R298, R299, R301: at S the application reads its block; at S + 4 every line with a pending operation takes it element by element, the
others are as read, the block stands in HBM with its delta on the way, and an entry with no row versions is gone with its commands, of a
parked task too (R330); one with row versions reads the version block at S + 8, and at S + 12 the row's version word has risen by
their number, every other word of the block as it was. -/
def Sys2Proof.Rules.AtomicsApply : Prop :=
  (∀ (pch : Nat) (s : State) (e : AtomicEntry), (s.channel pch).atomics = [e] → e.read = false → e.s = s.tb.ct →
    s.blockLost pch e.bank = false → (s.applicationRead pch e e.col).1 = 0 →
    ∃ t, exec (.atomicApplication pch) s = .next t ∧
      (t.channel pch).atomics = [{ e with read := true, old := (s.applicationRead pch e e.col).2.1 }]) ∧
  (∀ (pch : Nat) (s : State) (e : AtomicEntry) (c : AtomicCmd), (s.channel pch).atomics = [e] → e.read = true → e.s + 4 = s.tb.ct →
    s.blockLost pch e.bank = false → e.cmds = [c] → c.brick < 768 → e.old.length = 8 → e.old.any (fun l => l.2) = false →
    ∃ (new : List (Line × Bool)) (t : State), new.length = 8 ∧
      (∀ k, k < 8 → (tfind e.ops k = none → new.getD k (0, false) = e.old.getD k (0, false)) ∧
        (∀ q, tfind e.ops k = some q → appliedLine q (e.old.getD k (0, false)).1 (new.getD k (0, false)).1)) ∧
      exec (.atomicApplication pch) s = .next t ∧ (t.channel pch).atomics = (if e.version = 0 then [] else [e]) ∧
      storedAt s t (s.blockAddr ⟨pch / 32, pch % 32, e.bank, e.row, e.col⟩) new ∧ deltaWaits s t pch e e.col ∧
      (e.version = 0 → (s.brick c.brick).task = some c.task → ∀ h ∈ (t.brick c.brick).held, h.p ≠ c.p) ∧
      (e.version = 0 → (s.brick c.brick).task ≠ some c.task → ∀ x, (t.task c.task).savedBrick c.brick = some x → ∀ h ∈ x.held, h.p ≠ c.p)) ∧
  (∀ (pch : Nat) (s : State) (e : AtomicEntry), (s.channel pch).atomics = [e] → e.read = true → e.s + 8 = s.tb.ct →
    s.blockLost pch e.bank = false → (s.applicationRead pch e 3).1 = 0 →
    ∃ t, exec (.atomicApplication pch) s = .next t ∧ t.hbm = s.hbm ∧
      (t.channel pch).atomics = [{ e with oldVer := (s.applicationRead pch e 3).2.1 }]) ∧
  (∀ (pch : Nat) (s : State) (e : AtomicEntry), (s.channel pch).atomics = [e] → e.read = true → e.s + 12 = s.tb.ct →
    s.blockLost pch e.bank = false → e.oldVer.length = 8 → e.oldVer.any (fun l => l.2) = false →
    ∃ (head : Line) (t : State), exec (.atomicApplication pch) s = .next t ∧ (t.channel pch).atomics = [] ∧
      (∀ w, w < 16 → elem 32 head w = (elem 32 (e.oldVer.headD (0, false)).1 w + if w = e.col then e.version else 0) % 2 ^ 32) ∧
      storedAt s t (s.blockAddr ⟨pch / 32, pch % 32, e.bank, e.row, 3⟩) ((head, false) :: e.oldVer.drop 1) ∧ deltaWaits s t pch e 3)

/-- Atomics enter their queue and apply. -/
def Obligations.AtomicsPerform : Prop := Rules.AtomicsEnter ∧ Rules.AtomicsApply

namespace Sys2Proof.Rules

/-- The entry of a channel that is open for a column of a row at a row read: it has entered, and its application read is still to come
(R302). -/
def openEntry (s : State) (p : Place) (col : Nat) : Option AtomicEntry :=
  (s.channel p.channel).atomics.find? fun e =>
    decide (e.bank = p.bank ∧ e.row = p.row ∧ e.col = col ∧ e.read = false ∧ s.tb.ct < e.s)

/-- The pending operation on the version word's line. -/
def versionOp (s : State) (p : Place) : Option LineOp := (openEntry s p 3).bind fun e => tfind e.ops 0

/-- A row read of a brick's only command: one that runs in its slot and breaks no rule. -/
def readsSound (s : State) (b : Nat) (h : Held) (p : Place) : Prop :=
  b < 768 ∧ holdsOnly s b h ∧ readsRow h.opc = true ∧ h.done = true ∧ h.cancelled = false ∧
    s.blockLost p.channel p.bank = false ∧ s.rowReadBroken p = 0

end Sys2Proof.Rules

/-- R302 to R304: a row read takes its lines at S, a ROWLDF with what its open entry makes of them and the entry's increments; a
ROWLDF counts FRESH, a ROWLD that finds its row pending counts STALE. The version word is read at S + 4, with the increments, and
stands in the header line with PEND and POISON. -/
def Sys2Proof.Rules.RowsAreRead : Prop :=
  (∀ (b : Nat) (s : State) (h : Held), let p := s.homePlace h.target
    readsSound s b h p → h.course = s.tb.ct →
    let e := if h.opc = 0x5A then openEntry s p p.col else none
    let pend := (openEntry s p p.col).isSome || (openEntry s p 3).isSome
    let k := s.part (s.partOf b)
    ∃ (t : State) (h' : Held), exec (.rowRead b) s = .next t ∧ (t.brick b).held = [h'] ∧ h'.p = h.p ∧ h'.evLines = pend.toNat ∧
      h'.evCount = (e.map AtomicEntry.version).getD 0 ∧ h'.snap = (if h.opc = 0x5A then versionOp s p else none) ∧
      h'.got.map Fetched.k = List.range h.atomicLines ∧
      (∀ i, i < h.atomicLines → let old := (s.readBlock p).getD i (0, false)
        let op := e.bind fun e => tfind e.ops i
        (op = none ∨ old.2 = true → h'.gotAt i = old.1) ∧
        (∀ o, op = some o → old.2 = false → appliedLine o old.1 (h'.gotAt i))) ∧
      (t.part (s.partOf b)).wiltFresh = (if h.opc = 0x5A then satAdd32 k.wiltFresh 1 else k.wiltFresh) ∧
      (t.part (s.partOf b)).wiltStale = (if h.opc = 0x59 ∧ pend = true then satAdd32 k.wiltStale 1 else k.wiltStale)) ∧
  (∀ (b : Nat) (s : State) (h : Held), let p := { s.homePlace h.target with col := 3 }
    readsSound s b h p → h.course + 4 = s.tb.ct → h.evLines ≤ 1 →
    let l := (s.readBlock p).headD (0, false)
    let line := match h.snap with | some o => if l.2 then l.1 else (applyLine o l.1).1 | none => l.1
    let psn := l.2 || h.got.any (·.poison)
    ∃ (t : State) (h' : Held) (header : Line), exec (.rowRead b) s = .next t ∧ (t.brick b).held = [h'] ∧
      h'.got = h.got ++ [⟨h.atomicLines, header, false, 0⟩] ∧
      elem 32 header 0 = (elem 32 line (placeOf h.target).col + h.evCount) % 2 ^ 32 ∧
      elem 32 header 1 = h.evLines + 2 * psn.toNat ∧ (∀ e, 2 ≤ e → e < 16 → elem 32 header e = 0) ∧
      (psn = true → ∃ f ∈ (t.brick b).trap.found, f.code = 0x0B ∧ f.slot = 39))

/-- R302: line k of a row read is written at its destination and 64 k on S + 50 + k / 2 (ROWLDF S + 62), the header line at the
destination and 64 L four cycles later, whether or not the brick's plan cycle passes; every other byte of the ring reads as before, and
with the header the command is gone. -/
def Sys2Proof.Rules.RowsAreWritten : Prop :=
  ∀ (b : Nat) (s : State) (h : Held), b < 768 → holdsOnly s b h → readsRow h.opc = true → h.done = true → h.cancelled = false →
    h.ringAt % 64 = 0 → h.ringAt + 64 * (h.atomicLines + 1) ≤ 2 ^ 21 → (h.got.map Fetched.k).Nodup →
    h.got.all (fun g => decide (g.k ≤ h.atomicLines)) = true →
    let base := h.course + if h.opc = 0x5A then 62 else 50
    let due := h.got.filter fun g => (if g.k = h.atomicLines then base + 4 else base + g.k / 2) == s.tb.ct
    ∃ t, exec (.copyLineWrite b) s = .next t ∧
      (∀ g ∈ due, readLine (t.brick b).ring.mem (h.ringAt + 64 * g.k) = g.data) ∧
      (∀ a, (∀ g ∈ due, a < h.ringAt + 64 * g.k ∨ h.ringAt + 64 * g.k + 64 ≤ a) →
        readByte (t.brick b).ring.mem a = readByte (s.brick b).ring.mem a) ∧
      (t.brick b).held = (if base + 4 = s.tb.ct then [] else [h]) ∧
      t = s.onBrick b fun x => { x with ring := (t.brick b).ring, held := (t.brick b).held }

/-- Rows are read and written. (That a line poisoned at S gives its fault 0x0B at S + 4, once, is the model's choice: log entry 57.) -/
def Obligations.RowReads : Prop := Rules.RowsAreRead ∧ Rules.RowsAreWritten

/-- R307 to R310: UPD and UNORM are held for the cycles of their work, and a parameter line out of place is an illegal bundle whatever
the guard reads (R40); UPD at its start wants a norm of its own step tag, and keeps NORM
as it stands then (log entry 58). -/
def Sys2Proof.Rules.UpdatesAreHeld : Prop :=
  (∀ (o : EnOp) (s : State), guardTrue s.cur o.g = true → wordsSound s o 1 = true →
    let h := command s o 0x40 1
    h.w0.toNat % 64 = 0 → h.w0.toNat + 64 ≤ 2 ^ 21 → timely s o 40 = true → exec (.upd o) s = .next (taken s o 40 40 h)) ∧
  (∀ (o : EnOp) (s : State), let w := (command s o 0x40 1).w0.toNat
    (w % 64 ≠ 0 ∨ 2 ^ 21 < w + 64 → ∃ t, exec (.upd o) s = .next t ∧ illegalWords s t) ∧
    (w % 64 = 0 → w + 64 ≤ 2 ^ 21 → guardTrue s.cur o.g = false → exec (.upd o) s = .next s)) ∧
  (∀ (o : EnOp) (s : State), guardTrue s.cur o.g = true → wordsSound s o 2 = true →
    let h := command s o 0x41 2
    let groups := field h.w0.toNat 21 10 + 1
    let lines := if h.w0.getLsbD 31 then 2 * groups else groups
    let at' := field h.w0.toNat 0 21
    h.w0.toNat < 2 ^ 32 → at' % 64 = 0 → at' + 64 * lines ≤ 2 ^ 21 → h.w1.toNat % 64 = 0 → h.w1.toNat + 64 ≤ 2 ^ 21 →
    timely s o ((lines + 1) / 2 + 12) = true →
    exec (.unorm o) s = .next (taken s o ((lines + 1) / 2 + 12) ((lines + 1) / 2 + 12) h)) ∧
  (∀ (b : Nat) (s : State) (h : Held), holdsOnly s b h → h.opc = 0x40 → h.cancelled = false → (s.brick b).seq.clk = h.p + 1 →
    (sysGet (s.brick b) 0x027).getLsbD 0 = true → field (sysGet (s.brick b) 0x026).toNat 32 32 = s.steptag b →
    exec (.updStart b) s = .next (holding s b { h with w1 := sysGet (s.brick b) 0x026 }))

/-- R307, R309, R310: the writes of a UNORM are its sum at its address; the planes of a UPD's group, BF16 and extension, then M, then V
under AdamW, are written at the addresses of the parameter line, element by element as R309 computes them from the NORM that the update
took at its start (log entry 58). -/
def Sys2Proof.Rules.UpdatesWrite : Prop :=
  (∀ (b : Nat) (s : State) (h : Held), b ∈ s.ran → holdsOnly s b h → h.opc = 0x41 → h.cancelled = false → h.w1.toNat % 64 = 0 →
    (s.brick b).seq.clk = h.p + (h.unormLines + 1) / 2 + 13 → h.occ = h.p + (h.unormLines + 1) / 2 + 12 →
    let sum := (sumSquares h.unormWide ((List.range h.unormLines).map h.gotAt) (32 * h.unormGroups)).1
    ∃ t, exec (.copyLineWrite b) s = .next t ∧ readLine (t.brick b).ring.mem h.w1.toNat = BitVec.ofNat 512 sum ∧
      (∀ a, (a < h.w1.toNat ∨ h.w1.toNat + 64 ≤ a) → readByte (t.brick b).ring.mem a = readByte (s.brick b).ring.mem a) ∧
      (t.brick b).held = [] ∧ t = s.onBrick b fun x =>
        { x with ring := (t.brick b).ring, held := [], pollenNew := (t.brick b).pollenNew }) ∧
  (∀ (b j off : Nat) (s : State) (h : Held), b ∈ s.ran → holdsOnly s b h → h.opc = 0x40 → h.cancelled = false → j < h.groups →
    off ≤ 2 → (s.brick b).seq.clk = h.p + 38 + (if h.adam then 8 else 6) * j + off + 1 →
    (∀ i, i < 5 → h.param i % 64 = 0) →
    let r (e : Nat) := (updGroup h (updConsts h).1 j).getD e (0, 0, 0, .none)
    let at' := match off with
      | 0 => [h.param 1 + 64 * j, h.param 2 + 64 * j]
      | 1 => [h.param 3 + 128 * j, h.param 3 + 128 * j + 64]
      | _ => if h.adam then [h.param 4 + 128 * j, h.param 4 + 128 * j + 64] else []
    at'.Pairwise (fun a c => a + 64 ≤ c ∨ c + 64 ≤ a) →
    ∃ t, exec (.copyLineWrite b) s = .next t ∧
      (let line (a : Nat) := readLine (t.brick b).ring.mem a
       (off = 0 → ∀ e, e < 32 → elem 16 (line (h.param 1 + 64 * j)) e = (r e).2.2.1 / 2 ^ 16 % 2 ^ 16 ∧
         elem 16 (line (h.param 2 + 64 * j)) e = (r e).2.2.1 % 2 ^ 16) ∧
       (off = 1 → ∀ e, e < 16 → elem 32 (line (h.param 3 + 128 * j)) e = (r e).1 % 2 ^ 32 ∧
         elem 32 (line (h.param 3 + 128 * j + 64)) e = (r (e + 16)).1 % 2 ^ 32) ∧
       (off = 2 → h.adam = true → ∀ e, e < 16 → elem 32 (line (h.param 4 + 128 * j)) e = (r e).2.1 % 2 ^ 32 ∧
         elem 32 (line (h.param 4 + 128 * j + 64)) e = (r (e + 16)).2.1 % 2 ^ 32)) ∧
      (∀ a, (∀ w ∈ at', a < w ∨ w + 64 ≤ a) → readByte (t.brick b).ring.mem a = readByte (s.brick b).ring.mem a))

/-- Updates are held, start and write. -/
def Obligations.UpdatesPerform : Prop := Rules.UpdatesAreHeld ∧ Rules.UpdatesWrite


namespace Sys2Proof.Rules

/-- A CPYV of a brick with a variable side of target `kind` at an address, and its other side (R152). -/
def variableCommand (s : State) (o : EnOp) (writes : Bool) (x : Xlate) (side : Nat) : VCmd :=
  let h := command s o 0x13 3
  { opc := 0x13, w0 := h.w0, w1 := h.w1, w2 := h.w2, vs := field o.imm 0 6, bar := 0, epoch := 0, writes := writes, target := x.addr, kind := x.kind, grans := [], side := side, yard := false, paged := x.paged }

/-- The fields of a status word (R125). -/
def statusWord (s : State) (b v : Nat) : Nat := (tget (0 : Word) (s.brick b).var.vs v).toNat

/-- A command stands in the variable queue of a brick under a status word. -/
def queued (s : State) (b v : Nat) (c : VCmd) : Prop := (s.brick b).var.queue.find? (fun d => d.vs == v) = some c

end Sys2Proof.Rules

/-- R122, R125, R127, R128, R152: a CPYV from a variable target into whole granules of the ring is accepted, and the granules' tags are
to be 0xFFFF at t+1; one from the ring to a variable target is accepted as a write. (That a decoding CPYV may name a tag, against the CPYD row
of R141, is the model's reading: log entry 121.) -/
def Obligations.VariableCopiesAccepted : Prop :=
  (∀ (o : EnOp) (s : State), guardTrue s.cur o.g = true → wordsSound s o 3 = true →
    let h := command s o 0x13 3
    let n := shapeLen h.w2
    let x := sideXlate (s.part (s.partOf s.issue.brick)) h.w0 n false false
    variableShape h.w2 = true → shapeSk h.w2 = 1 → shapeDk h.w2 = 0 → h.w0.toNat % 64 = 0 → h.w1.toNat % 4096 = 0 → n % 64 = 0 →
    h.w1.toNat + 64 * n ≤ 2 ^ 21 → x.cause = 0 →
    (x.paged = true → x.addr + 64 * (if shapeDec h.w2 = true then shapeClen h.w2 else n) ≤ 2 ^ 48) →
    acceptable s (field o.imm 0 6) (field o.imm 6 5) = true →
    exec (.cpyv o) s = .next ((accepted s (field o.imm 6 5) (variableCommand s o false x h.w1.toNat)).scheduled
      ((List.range (n / 64)).map fun g => s.effect 39 1 false (.tag (h.w1.toNat / 4096 + g)) (BitVec.ofNat 512 0xFFFF)))) ∧
  (∀ (o : EnOp) (s : State), guardTrue s.cur o.g = true → wordsSound s o 3 = true →
    let h := command s o 0x13 3
    let n := shapeLen h.w2
    let x := sideXlate (s.part (s.partOf s.issue.brick)) h.w1 n true false
    variableShape h.w2 = true → shapeSk h.w2 = 0 → shapeDk h.w2 = 1 → h.w0.toNat % 64 = 0 → h.w0.toNat + 64 * n ≤ 2 ^ 21 →
    h.w1.toNat % 64 = 0 → x.cause = 0 → (x.paged = true → x.addr + 64 * n ≤ 2 ^ 48) →
    acceptable s (field o.imm 0 6) (field o.imm 6 5) = true →
    exec (.cpyv o) s = .next (accepted s (field o.imm 6 5) (variableCommand s o true x h.w0.toNat)))

/-- R130 to R133: AWAIT goes on where its barrier stood at zero as the cycle began, else the bundle waits; FENCEV orders later writes
after earlier ones, and its done form waits for them and has the host ports read; VSTAT lands the status word at t+3 and may clear one
that is not busy and that the cycle has not changed nor the bundle's own command taken. -/
def Obligations.BoundaryInstructions : Prop :=
  (∀ (o : EnOp) (s : State), guardTrue s.cur o.g = true →
    let n := tget 0 s.began.var.barriers (barrierOf s.cur (o.imm % 32))
    exec (.await o) s = .next (if n = 0 then s else { s with issue := { s.issue with wait := true } })) ∧
  (∀ (o : EnOp) (s : State), guardTrue s.cur o.g = true →
    let later := s.onCur fun x => { x with var := { x.var with epoch := x.var.epoch + 1 } }
    exec (.fencevOrder o) s = .next later ∧
    exec (.fencevDone o) s = .next
      (if s.began.var.queue.any (fun c => c.writes) then { s with issue := { s.issue with wait := true, portReads := true } }
      else later)) ∧
  (∀ (o : EnOp) (s : State), guardTrue s.cur o.g = true → s.freeFor (s.effect 39 3 false (.sreg o.a.index) 0) = true →
    let n := o.imm % 64
    let v := tget (0 : Word) s.began.var.vs n
    let t := s.scheduled [s.effect 39 3 false (.sreg o.a.index) (v.setWidth 512)]
    exec (.vstat o) s = .next (if field o.imm 6 1 = 1 ∧ v.getLsbD 0 = false ∧ tget 0 s.cur.var.vs n = v ∧ n ∉ s.issue.taken
      then t.onCur fun x => { x with var := { x.var with vs := tput 0 x.var.vs n 0 } } else t))

/-- R125, R126, R130: a page fault, code 1, 2 or 9, pauses the transfer with its code and offset (of a later fault too: log entry 142);
the codes 4 to 7 and 10 end it, and no other code is written; a resume clears both, marks the restart and goes on,
from its beginning where it decodes; an abort ends it with code 8, 2^20 cycles without an answer with code 5 (log entry 117). An end
leaves the queue, sets DONE, and the barrier's count is one less. -/
def Sys2Proof.Rules.PausedTransfers : Prop :=
  ∀ (b v : Nat) (s : State) (c : VCmd), b < 768 → v < 64 → queued s b v c →
    let w := statusWord s b v
    let pending := tget 0 (s.brick b).var.barriers c.bar
    let dec := c.opc = 0x13 ∧ shapeDec c.w2 = true
    (∀ code off, code = 1 ∨ code = 2 ∨ code = 9 → off < 2 ^ 32 → c.opc ≠ 7 → ∃ t, exec (.pageFault b v code off) s = .next t ∧
      let u := statusWord t b v
      field u 3 1 = 1 ∧ field u 8 4 = code ∧ field u 32 32 = off ∧ field u 0 3 = field w 0 3 ∧ field u 12 20 = field w 12 20 ∧
        t.out = s.out ++ [.pageFault b v code] ∧ (t.brick b).var.queue = (s.brick b).var.queue) ∧
    (∀ code off, code ∈ [4, 5, 6, 7, 10] → c.opc ≠ 7 → ∃ t, exec (.pageFault b v code off) s = .next t ∧
      field (statusWord t b v) 0 3 = 6 ∧ field (statusWord t b v) 8 4 = code ∧ (∀ d ∈ (t.brick b).var.queue, d.vs ≠ v) ∧ t.out = s.out) ∧
    (∀ code off, code = 0 ∨ code = 8 ∨ 11 ≤ code → exec (.pageFault b v code off) s = .next s) ∧
    (field w 3 1 = 1 → ∃ t, exec (.vprespResume b v) s = .next t ∧
      let u := statusWord t b v
      field u 3 1 = 0 ∧ field u 8 4 = 0 ∧ field u 4 1 = 1 ∧ field u 0 3 = field w 0 3 ∧ field u 32 32 = field w 32 32 ∧
        (t.brick b).var.queue.map VCmd.vs = (s.brick b).var.queue.map VCmd.vs ∧
        (dec → field u 12 20 = 0 ∧ ∀ d, (t.brick b).var.queue.find? (fun d => d.vs == v) = some d → d.grans = [] ∧ d.parts = []) ∧
        (¬ dec → field u 12 20 = field w 12 20 ∧ (t.brick b).var.queue = (s.brick b).var.queue.map fun d =>
          if d.vs = v then { d with since := s.tb.ct } else d)) ∧
    (∀ i code, (i = Instr.vprespAbort b v ∧ code = 8 ∧ field w 3 1 = 1) ∨
        (i = .completionTimeout b v ∧ code = 5 ∧ ∃ from', (s.brick b).waitsSince b c = some from' ∧ from' + 2 ^ 20 ≤ s.tb.ct) →
      ∃ t, exec i s = .next t ∧
      let u := statusWord t b v
      field u 0 3 = 6 ∧ field u 8 4 = code ∧ field u 12 20 = field w 12 20 ∧ (code = 8 → field u 3 1 = 0 ∧ field u 32 32 = field w 32 32) ∧
        (code = 5 → ¬ dec → c.bytes ≤ 2 ^ 32 → 0 < c.bytes → field u 32 32 = min c.undone (c.bytes - 1)) ∧
        (∀ d ∈ (t.brick b).var.queue, d.vs ≠ v) ∧ tget 0 (t.brick b).var.barriers c.bar = pending - 1)

/-- R117, R125, R128, R129, R136: a granule that comes whole for a transfer into the ring, from a target that has no pages and no poison
there, takes the transfer's tag, and counts; the cycle's writes then put it at the transfer's ring address, and the ring's other bytes
read as before. With every granule in, the transfer is done: DONE and no error; a target that answers with poison, 3, or not, 4, ends it
with that code and the offset, the line that came back as poison written as poison, in the Yard as a piece of the next cycle, which the
banks rank (the model's choice: log entry 133); of one that decodes, all lines of the
output are written as poison on that cycle (the model's choice: log entry 66). No other end is the target's to give. VPINV changes nothing: that the engines keep no
translation which it could clear is the model's choice (R124; log entry 64). -/
def Sys2Proof.Rules.GranulesPerform : Prop :=
  (∀ (b v g : Nat) (data : List (BitVec 8)) (s : State) (c : VCmd), b < 768 → v < 64 → queued s b v c →
    c.opc = 0x13 → c.writes = false → c.yard = false → c.paged = false → c.kind = 2 → shapeDec c.w2 = false →
    c.side % 4096 = 0 → c.side + 4096 * c.granules ≤ 2 ^ 21 → c.target % 64 = 0 → c.lines = 64 * c.granules →
    g < c.granules → g ∉ c.grans → tget 0 c.parts g = 0 → field (statusWord s b v) 3 1 = 0 → s.varWrites = [] →
    (∀ i, i < 64 → (c.target + 4096 * g + 64 * i) / 64 ∉ s.tier2Poison) →
    ∃ t, exec (.variableGranule b v g ⟨0, 4096, false, data⟩) s = .next t ∧ (t.brick b).ring.mem = (s.brick b).ring.mem ∧
      (∀ i, i < 64 → readLine (t.performVars.brick b).ring.mem (c.side + 4096 * g + 64 * i) =
        readLine s.tier2 (c.target + 4096 * g + 64 * i)) ∧
      (∀ a, (a < c.side + 4096 * g ∨ c.side + 4096 * g + 4096 ≤ a) →
        readByte (t.performVars.brick b).ring.mem a = readByte (s.brick b).ring.mem a) ∧
      tagOf (t.brick b) (c.side / 4096 + g) = BitVec.ofNat 16 (shapeTag c.w2) ∧
      field (statusWord t b v) 12 20 = (field (statusWord s b v) 12 20 + 1) % 2 ^ 20 ∧ t.performVars.tier2 = s.tier2) ∧
  (∀ (b v : Nat) (s : State) (c : VCmd), b < 768 → v < 64 → queued s b v c → c.opc = 0x13 →
    (c.grans.length = c.granules → (shapeDec c.w2 = true → c.ready = true) → c.ports.all (fun q => q.sent) = true →
      ∃ t, exec (.variableDone b v ⟨0, 0⟩) s = .next t ∧ field (statusWord t b v) 0 3 = 2 ∧ field (statusWord t b v) 8 4 = 0 ∧
        (∀ d ∈ (t.brick b).var.queue, d.vs ≠ v) ∧
        tget 0 (t.brick b).var.barriers c.bar = tget 0 (s.brick b).var.barriers c.bar - 1 ∧
        (t.brick b).ring = (s.brick b).ring) ∧
    (∀ code off, code ≠ 0 → code ≠ 3 → code ≠ 4 → exec (.variableDone b v ⟨code, off⟩) s = .next s) ∧
    (∀ off, shapeDec c.w2 = true → c.side % 64 = 0 → ∃ t, exec (.variableDone b v ⟨3, off⟩) s = .next t ∧
      ∀ i, i < shapeLen c.w2 → (t.performVars.brick b).ring.poison.contains ((c.side + 64 * i) % 2 ^ 21 / 64) = true) ∧
    (∀ g, shapeDec c.w2 = true → c.ready = false → c.side % 64 = 0 → c.writes = false → c.paged = false → c.kind = 2 → g < c.granules →
      g ∉ c.grans → field (statusWord s b v) 3 1 = 0 →
      ∃ t, exec (.variableGranule b v g ⟨0, 4096, true, []⟩) s = .next t ∧ field (statusWord t b v) 0 3 = 6 ∧
        field (statusWord t b v) 8 4 = 3 ∧ field (statusWord t b v) 32 32 = 0 ∧ (∀ d ∈ (t.brick b).var.queue, d.vs ≠ v) ∧
        ∀ i, i < shapeLen c.w2 → (t.performVars.brick b).ring.poison.contains ((c.side + 64 * i) % 2 ^ 21 / 64) = true) ∧
    (∀ off, shapeDec c.w2 = false → off < c.bytes → c.writes = false → c.yard = false → c.side % 64 = 0 →
      ∃ t, exec (.variableDone b v ⟨3, off⟩) s = .next t ∧
        (t.performVars.brick b).ring.poison.contains ((c.side + 64 * (off / 64)) % 2 ^ 21 / 64) = true) ∧
    (∀ off, shapeDec c.w2 = false → off < c.bytes → c.writes = false → c.yard = true → off / 4096 ∉ c.grans →
      ∃ t, exec (.variableDone b v ⟨3, off⟩) s = .next t ∧ queued t b v c ∧ (t.brick b).var.vs = (s.brick b).var.vs ∧
        (t.brick b).var.back = (s.brick b).var.back ++ [(v, ⟨off / 4096, off % 4096, 64 - off % 64, true, []⟩)]) ∧
    (∀ off, shapeDec c.w2 = false → off < c.bytes → c.bytes ≤ 2 ^ 32 → c.writes = false → c.yard = true → c.paged = false → c.kind = 2 →
      off / 4096 ∉ c.grans → field (statusWord s b v) 3 1 = 0 → c.side % 64 = 0 →
      ∃ t, exec (.variableGranule b v (off / 4096) ⟨off % 4096, 64 - off % 64, true, []⟩) s = .next t ∧
        field (statusWord t b v) 0 3 = 6 ∧ field (statusWord t b v) 8 4 = 3 ∧ field (statusWord t b v) 32 32 = off ∧
        (t.performVars.yardPoison.contains (c.side / 64 + off / 64) = true)) ∧
    (∀ code off, code = 4 ∨ (code = 3 ∧ (shapeDec c.w2 = true ∨ c.writes = true ∨ c.yard = false ∨ off / 4096 ∈ c.grans)) → off < c.bytes → c.bytes ≤ 2 ^ 32 →
      ∃ t, exec (.variableDone b v ⟨code, off⟩) s = .next t ∧ field (statusWord t b v) 0 3 = 6 ∧ field (statusWord t b v) 8 4 = code ∧
        field (statusWord t b v) 32 32 = (if shapeDec c.w2 then 0 else off) ∧
        (∀ d ∈ (t.brick b).var.queue, d.vs ≠ v) ∧
        tget 0 (t.brick b).var.barriers c.bar = tget 0 (s.brick b).var.barriers c.bar - 1 ∧
        ∀ g ∈ c.tagged, tagOf (t.brick b) g = 0xFFFF)) ∧
  (∀ s : State, exec .vpinv s = .next s)

/-- Variable transfers perform, pause, resume and abort. -/
def Obligations.VariableTransfers : Prop := Rules.PausedTransfers ∧ Rules.GranulesPerform


namespace Sys2Proof.Rules

/-- The channel of the timeline command under way. -/
def here (s : State) : Channel := s.channel s.time.ch

/-- An event lies fewer than n cycles back. -/
def tooSoon (n at' : Nat) (t : Option Nat) : Bool := t.any fun x => decide (at' < x + n)

/-- The timing table of R84 with its figures: each code, and whether the command of this opcode, on this bank and this cycle, breaks its
rule. ACT is 1, RD 2, WR 3, WRB 4, WRS 5, RDX 6, PRE 7, PREA 8, REF 9 and for all banks 16, RSW 10; PREA and the all-bank REF act on
every bank. WRS on a lost bank leaves the state of the bank out (R108). -/
def timingRules (c : Channel) (k bank at' : Nat) (lost : Bool) : List (Nat × Bool) :=
  let b := c.bank bank
  let all := if k ∈ [8, 16] then (List.range 80).map c.bank else [b]
  let opened := all.filter fun x => x.openRow.isSome
  let column := decide (k ∈ [2, 3, 4, 5, 6])
  [(1, column && tooSoon 10 at' b.actAt),
    (2, decide (k ∈ [7, 8]) && all.any fun x => tooSoon 24 at' x.actAt),
    (3, decide (k ∈ [1, 9, 10, 16]) && all.any fun x => tooSoon 10 at' x.preAt),
    (4, k == 1 && tooSoon 34 at' b.actAt),
    (5, k == 1 && c.acts.any fun a => tooSoon 2 at' (some a)),
    (6, k == 1 && 4 ≤ (c.acts.filter fun a => tooSoon 16 at' (some a)).length),
    (7, column && tooSoon (if c.colWrb then 8 else 4) at' c.colAt),
    (8, decide (k ∈ [3, 4, 5]) && tooSoon 6 at' c.rdAt),
    (9, decide (k ∈ [2, 6]) && tooSoon 8 at' c.wrAt),
    (10, decide (k ∈ [7, 8]) && opened.any fun x => tooSoon 4 at' x.rdAt),
    (11, decide (k ∈ [7, 8]) && opened.any fun x => tooSoon 12 at' x.wrAt),
    (12, all.any fun x => tooSoon 112 at' x.refAt),
    (13, tooSoon 250 at' c.refAllAt),
    (14, (all.any fun x => tooSoon 96 at' x.rswAt) || (column && tooSoon 64 at' c.rswAt)),
    (16, (k == 1 && b.openRow.isSome) || (column && b.openRow.isNone && !lost) || (decide (k ∈ [9, 10, 16]) && !opened.isEmpty))]

/-- A command breaks no rule of R84, no claimed slot and no run end (R84, R86, R100, R296; log entries 103 and 105). -/
def lawful (s : State) (k bank : Nat) (lost : Bool) : Bool :=
  ((timingRules (here s) k bank s.tb.ct lost).all fun r => !r.2) &&
    (!isColumn k || (here s).busClaim s.tb.ct (s.tb.ct + if k = 4 then 7 else 3) == 0) &&
    (match s.taskRunEnd s.time.task with | some e => !(here s).breaksRunEnd k bank s.tb.ct (s.tb.ct + 1) e | none => true)

/-- The timelines of a channel with the task's at its next command, its first again after its last (R81). -/
def advancedBy (task : Nat) (ls : List Timeline) : List Timeline :=
  ls.map fun l => if l.task = task then
    (if l.pos + 1 < l.cmds.length then { l with pos := l.pos + 1 } else { l with pos := 0, pass := l.pass + 1 }) else l

/-- Nothing of the package but the channel of the command is other than it was, and of that channel's banks only these. -/
def onlyHere (s t : State) (banks : List Nat) : Prop :=
  (∀ k, k ≠ s.time.ch → t.channel k = s.channel k) ∧ t = { s with channels := t.channels } ∧
    (here t).timelines = advancedBy s.time.task (here s).timelines ∧ (here t).lastCmd = some s.tb.ct ∧
    ∀ i, i ∉ banks → (here t).bank i = (here s).bank i

/-- The row open in a bank of the channel. -/
def rowOf (s : State) (b : Nat) : Nat := ((here s).bank b).openRow.getD 0

/-- The block of the channel's stack that a column command works on (R76). -/
def blockHere (s : State) (b c : Nat) : Place := ⟨s.time.ch / 32, s.time.ch % 32, b, rowOf s b, c⟩

/-- A bank's column times after a command (R84): reads set rdAt, writes wrAt. -/
def openAt (b : Bank) (row : Nat) : Prop := b.openRow = some row

/-- The lines of a write-buffer entry (R90). -/
def entryLines (s : State) (e : Nat) : List (Line × Bool) := settlePoison ((here s).entry e).lines

end Sys2Proof.Rules

/-- R81, R83, R92: an ACT that breaks no rule opens its row, stepped by the pass where s is 1, and the tracker counts it: a row that it
holds by one more, any other in the place of the lowest count, the lowest-numbered entry among equals, with that count and one; PRE
closes a bank and PREA every open one; GAP idles; SYNC goes on at its frame cycle. -/
def Obligations.TimelineOpensAndCloses : Prop :=
  (∀ (b r st : Nat) (s : State), lawful s 1 b false = true → ((here s).bank b).cracked = false →
    let pass := (s.timeline.map Timeline.pass).getD 0
    let row := if st = 1 then (r + pass * (s.part (s.task s.time.task).part).htstep) % 15258 else r
    tget 0 ((here s).bank b).copyErr row = 0 →
    ∃ t, exec (.act b r st) s = .next t ∧ onlyHere s t [b] ∧ openAt ((here t).bank b) row ∧
      ((here t).bank b).actAt = some s.tb.ct ∧ ((here t).bank b).openBy = some s.time.task ∧
      ((here t).bank b).rows = ((here s).bank b).rows ∧
      (let old := ((here s).bank b).tracker
       let new := ((here t).bank b).tracker
       ((∃ e ∈ old, e.1 = row) → new = old.map fun e => if e.1 = row then (e.1, e.2 + 1) else e) ∧
        ((∀ e ∈ old, e.1 ≠ row ∧ e.2 ≠ 0) → old.length < 8 → new = old ++ [(row, 1)]) ∧
        (∀ i was low, (∀ e ∈ old, e.1 ≠ row ∧ low ≤ e.2) → old[i]? = some (was, low) → (∀ j e, j < i → old[j]? = some e → e.2 ≠ low) →
          8 ≤ old.length ∨ low = 0 → new = old.set i (row, low + 1)))) ∧
  (∀ (b : Nat) (s : State), lawful s 7 b false = true → ((here s).bank b).cracked = false →
    ∃ t, exec (.pre b) s = .next t ∧ onlyHere s t [b] ∧ ((here t).bank b).openRow = none ∧
      (((here s).bank b).openRow ≠ none → ((here t).bank b).preAt = some s.tb.ct) ∧
      (((here s).bank b).openRow = none → (here t).bank b = (here s).bank b)) ∧
  (∀ (s : State), lawful s 8 0 false = true →
    ∃ t, exec .prea s = .next t ∧ onlyHere s t ((here s).banks.map (·.1)) ∧ ∀ p ∈ (here t).banks, p.2.openRow = none) ∧
  (∀ (n : Nat) (s : State) (l : Timeline), (here s).timelines = [l] → l.task = s.time.task → l.pos + 1 < l.cmds.length →
    s.idlesTooLong (s.tb.ct + n + 1) = false →
    ∃ t, exec (.gap n) s = .next t ∧ (here t).timelines = [{ l with idle := n, pos := l.pos + 1 }] ∧
      (∀ k, k ≠ s.time.ch → t.channel k = s.channel k) ∧ t = { s with channels := t.channels }) ∧
  (∀ (f : Nat) (s : State), inColumns (s.part (s.task s.time.task).part).owned f = true →
    s.idlesTooLong (s.tb.ct + (f + 4096 - s.tb.ct % 4096) % 4096 + 1) = false →
    exec (.sync f) s = .next (if s.tb.ct % 4096 = f then s.advance else s))

namespace Sys2Proof.Rules

/-- A physical row that an RSW may move to: no logical row lies on it and it is not bad (R75, R92). -/
def freeRow (k : Bank) (d : Nat) : Prop :=
  d < 16384 ∧ d ∉ k.bad ∧ (∀ e ∈ k.rows, e.2 ≠ d) ∧ (15258 ≤ d ∨ ∃ e ∈ k.rows, e.1 = d)

/-- The row that the tracker has counted highest, the lowest-numbered entry among equals (R92; log entry 52). -/
def hottest (k : Bank) (row n : Nat) : Prop :=
  ∃ i, k.tracker[i]? = some (row, n) ∧ (∀ e ∈ k.tracker, e.2 ≤ n) ∧ ∀ (j : Nat) (e : Nat × Nat), j < i → k.tracker[j]? = some e → e.2 < n

/-- R92, R94: an RSW moves the oldest queued retirement, else the hottest row if its count reaches HRHT.THRESH: every block of the row
reads at its new place as it read before, no byte outside the two rows changes, and no other row has moved. A retirement marks the old
row bad and leaves its queue; a hot row's count goes to 0. Where the bank has no spare row left nothing moves (the model's choice: log
entry 138). -/
def RowSwitch : Prop :=
  ∀ (b row : Nat) (s : State), lawful s 10 b false = true → ((here s).bank b).cracked = false → Memory.wf s.hbm = true →
    let k := (here s).bank b
    let old := physRow (here s) b row
    let unit (r : Nat) := (s.time.ch * 80 + b) * 16384 + r
    let p (c : Nat) : Place := ⟨s.time.ch / 32, s.time.ch % 32, b, row, c⟩
    let retires := k.retire.head? = some row
    let hot := k.retire = [] ∧ ∃ n, hottest k row n ∧ s.hrht ≤ n
    tget 0 k.copyErr row = 0 → old < 16384 → retires ∨ hot →
    ((∃ d, freeRow k d) → ∃ t dst, exec (.rsw b) s = .next t ∧ freeRow k dst ∧ physRow (here t) b row = dst ∧
      (∀ r, r ≠ row → physRow (here t) b r = physRow (here s) b r) ∧
      (∀ c i, c < 4 → i < 512 → readByte t.hbm (t.blockAddr (p c) + i) = readByte s.hbm (s.blockAddr (p c) + i)) ∧
      (∀ a, a / 2048 ≠ unit old → a / 2048 ≠ unit dst → readByte t.hbm a = readByte s.hbm a) ∧
      (let k' := (here t).bank b
       k'.rswAt = some s.tb.ct ∧
        (retires → old ∈ k'.bad ∧ (∀ d, d ≠ old → (d ∈ k'.bad ↔ d ∈ k.bad)) ∧ k'.retire = k.retire.drop 1 ∧ k'.tracker = k.tracker) ∧
        (hot → k'.bad = k.bad ∧ k'.retire = [] ∧ k'.tracker = k.tracker.map fun e => if e.1 = row then (row, 0) else e)) ∧
      ∀ ch, ch ≠ s.time.ch → t.channel ch = s.channel ch) ∧
    ((∀ d, ¬ freeRow k d) → ∃ t, exec (.rsw b) s = .next t ∧ onlyHere s t [b] ∧ ((here t).bank b).rswAt = some s.tb.ct ∧
      ((here t).bank b).rows = k.rows ∧ ((here t).bank b).tracker = k.tracker ∧ ((here t).bank b).retire = k.retire)

end Sys2Proof.Rules

/-- R83, R87, R89, R92, R94: RD puts its block on the read-return path for C + 48; REF counts for the frame, of one bank or of all;
RSW reserves its bank and, with nothing to move, leaves the rows where they are; else it moves the oldest retirement or the hottest
row (with no spare row left nothing: log entry 138, the model's choice). -/
def Obligations.TimelineReadsAndRefreshes : Prop := Rules.RowSwitch ∧
  (∀ (b c : Nat) (s : State), lawful s 2 b false = true →
    ∃ t, exec (.rd b c) s = .next t ∧
      (here t).ret = (here s).ret ++ [{ issued := s.tb.ct, rdx := false, from' := s.tb.ct + 48, lines := s.readBlock (blockHere s b c), alt := [], stripe := none }] ∧
      ((here t).bank b).rdAt = some s.tb.ct ∧ ((here t).bank b).openRow = ((here s).bank b).openRow ∧
      (∀ k, k ≠ s.time.ch → t.channel k = s.channel k) ∧ t.hbm = s.hbm ∧
      ((s.readBlock (blockHere s b c)).any (fun l => l.2) = true → s.faq.length < 256 → t.faq.length = s.faq.length + 1)) ∧
  (∀ (b : Nat) (s : State), lawful s 9 b false = true → ((here s).bank b).cracked = false →
    ∃ t, exec (.ref b 0) s = .next t ∧ onlyHere s t [b] ∧ ((here t).bank b).refreshed = true ∧ ((here t).bank b).refAt = some s.tb.ct) ∧
  (∀ (b : Nat) (s : State), lawful s 16 0 false = true →
    ∃ t, exec (.ref b 1) s = .next t ∧ onlyHere s t (List.range 80) ∧ (here t).refAllAt = some s.tb.ct ∧
      ∀ i, i < 80 → ((here t).bank i).refreshed = true) ∧
  (∀ (b : Nat) (s : State), lawful s 10 b false = true → ((here s).bank b).cracked = false → ((here s).bank b).retire = [] →
    (∀ e ∈ ((here s).bank b).tracker, e.2 < s.hrht) →
    ∃ t, exec (.rsw b) s = .next t ∧ onlyHere s t [b] ∧ ((here t).bank b).rswAt = some s.tb.ct ∧ (here t).rswAt = some s.tb.ct ∧
      ((here t).bank b).rows = ((here s).bank b).rows)

/-- R83, R90, R99, R108: WR of a stripe that has no parity to keep writes its entry's eight lines at the block's address, every other
byte of HBM reads as before, and the entry is empty; WRB reads the old block, has its write and delta due at C + 4, and claims the
shadow slot at C + 96. -/
def Sys2Proof.Rules.TimelineWrites : Prop :=
  (∀ (b c e : Nat) (s : State), lawful s 3 b false = true → ((here s).entry e).full = true →
    let p := blockHere s b c
    (s.stripe p.ch b p.row = .parityLost ∨ s.stripe p.ch b p.row = .relaid) → ((here s).entry e).lines.length = 8 →
    ∃ t, exec (.wr b c e) s = .next t ∧
      (∀ i, i < 8 → readLine t.hbm (s.blockAddr p + 64 * i) = ((entryLines s e).getD i (0, false)).1) ∧
      (∀ a, (a < s.blockAddr p ∨ s.blockAddr p + 512 ≤ a) → readByte t.hbm a = readByte s.hbm a) ∧
      ((here t).entry e).full = false ∧ (∀ e', e' ≠ e → (here t).entry e' = (here s).entry e') ∧
      ((here t).bank b).wrAt = some s.tb.ct ∧ (∀ k, k ≠ s.time.ch → t.channel k = s.channel k)) ∧
  (∀ (b c e : Nat) (s : State), lawful s 4 b false = true → ((here s).entry e).full = true → ((here s).bank b).openRow ≠ none →
    let p := blockHere s b c
    let par := 32 * parityStack p.row p.ch + p.ch
    s.isTorn p.ch b p.row c = false → par ≠ s.time.ch → s.stripe p.ch b p.row = .bonded →
    (s.channel par).shadowClaim (s.tb.ct + 96) b p.row c = 0 →
    ∃ t, exec (.wrb b c e) s = .next t ∧
      t.pendWrites = s.pendWrites ++ [{ cycle := s.tb.ct + 4, pch := s.time.ch, bank := b, row := p.row, col := c, lines := entryLines s e, delta := xorLines (s.readBlock p) (entryLines s e), emit := true, shadow := s.tb.ct + 96, task := s.time.task }] ∧
      (t.channel par).shadows = (s.channel par).shadows ++ [(s.tb.ct + 96, b, p.row, c)] ∧
      ((here t).entry e).full = false ∧ ((here t).bank b).wrAt = some (s.tb.ct + 4) ∧ t.hbm = s.hbm)

namespace Sys2Proof.Rules

/-- The lines of a block that R102 writes: the data entries of the stripe's positions, and on its parity stack their XOR. -/
def stripeLine (data : List (List (Line × Bool))) (row ch k i : Nat) : Line :=
  if k = parityStack row ch then data.foldl (fun x bl => x ^^^ (bl.getD i (0, false)).1) 0
  else ((data.getD (if k < parityStack row ch then k else k - 1) []).getD i (0, false)).1

/-- R102, R103, R108, R109: in a set of 24 WRS that agree, each command empties its own entry, and that of stack 0 carries out the
write of the stripe (the model's order of the one operation: log entry 35): each of the 23 data stacks holds its entry, the parity
stack the XOR of the 23, and every other byte of HBM reads as before. In a set of 23 RDX around the lost stack, that of the lowest
stack puts the XOR of the surviving blocks on the lost stack's read-return path for C + 56 (log entry 35). -/
def TimelineSets : Prop :=
  (∀ (b c e pf row : Nat) (s : State),
    let ch := s.time.ch % 32
    let ms := s.setMembers 5 ch
    let st := s.stripe ch b row
    let word (k : Nat) : BitVec 32 := ((ms.find? fun m => m.1 == k).map (·.2)).getD 0
    let data := (List.range 23).map fun d =>
      settlePoison ((s.channel (32 * dataStack row ch d + ch)).entry (wordEntry (word (dataStack row ch d)))).lines
    let place (k : Nat) : Place := ⟨k, ch, b, row, c⟩
    b < 80 → c < 4 → (∀ k, k < 24 → physRow (s.channel (32 * k + ch)) b row < 16384) → (∀ bl ∈ data, bl.length = 8) →
    s.setRow ch b ms = some row → s.stripeOpen ch b row c = false → lawful s 5 b (s.isLost (s.time.ch / 32) ch b) = true →
    ms.length = 24 → s.setAgrees ch b row c ms = true → (ms.filter fun m => wordParity m.2).map (·.1) = [parityStack row ch] →
    (ms.all fun m => !wordParity m.2 || wordEntry m.2 == 0) = true → st = .bonded → s.setReady 5 ch b ms = true → (pf = 0 → ((here s).entry e).full = true) → (pf ≠ 0 → e = 0) →
    ∃ t, exec (.wrs b c e pf) s = .next t ∧ ((here t).bank b).wrAt = some s.tb.ct ∧
      (pf = 0 → ((here t).entry e).full = false) ∧
      (s.time.ch / 32 ≠ 0 → t.hbm = s.hbm) ∧ (s.time.ch / 32 = 0 →
        (∀ k i, k < 24 → i < 8 → readLine t.hbm (s.blockAddr (place k) + 64 * i) = stripeLine data row ch k i) ∧
        (∀ a, (∀ k, k < 24 → a < s.blockAddr (place k) ∨ s.blockAddr (place k) + 512 ≤ a) → readByte t.hbm a = readByte s.hbm a) ∧
        t.isTorn ch b row c = (t.channel (32 * parityStack row ch + ch)).tornOvf)) ∧
  (∀ (b c row : Nat) (s : State),
    let ch := s.time.ch % 32
    let l := s.bond.lstack
    let ms := s.setMembers 6 ch
    let others := (List.range 24).filter (· ≠ l)
    ((here s).bank b).openRow = some row → s.stripeOpen ch b row c = false → lawful s 6 b false = true →
    s.stripe ch b row = .dataLost → s.setAgrees ch b row c ms = true → ms.length = 23 →
    others.all (fun k => ms.any fun m => m.1 == k) = true → s.setReady 6 ch b ms = true →
    ∃ t, exec (.rdx b c) s = .next t ∧ t.hbm = s.hbm ∧ ((here t).bank b).rdAt = some s.tb.ct ∧
      (s.time.ch / 32 ≠ (if l = 0 then 1 else 0) → ∀ k, (t.channel k).ret = (s.channel k).ret) ∧
      (s.time.ch / 32 = (if l = 0 then 1 else 0) → (t.channel (32 * l + ch)).ret = (s.channel (32 * l + ch)).ret ++
        [{ issued := s.tb.ct, rdx := true, from' := s.tb.ct + 56, lines := settlePoison (xorBlocks (others.map fun k => s.readBlock ⟨k, ch, b, row, c⟩)), alt := s.readBlock ⟨parityStack row ch, ch, b, row, c⟩, stripe := some (ch, b, row, c) }]))

end Sys2Proof.Rules

/-- Timeline writes and set commands. -/
def Obligations.TimelineWritesAndSets : Prop := Rules.TimelineWrites ∧ Rules.TimelineSets

namespace Sys2Proof.Rules

/-- The first rule that a command to a bank breaks: a claimed slot of the data bus, then R84's, in the order of their codes, then the
run end (R84, R86, R100, R296; log entries 103 and 105). -/
def bankRule (s : State) (k bank : Nat) (lost : Bool) : Option (Nat × Nat) :=
  let claim := if isColumn k then (here s).busClaim s.tb.ct (s.tb.ct + if k = 4 then 7 else 3) else 0
  if claim ≠ 0 then some (claim, 0x05)
  else match (timingRules (here s) k bank s.tb.ct lost).find? fun r => r.2 with
  | some r => some (r.1, 0x05)
  | none =>
    match s.taskRunEnd s.time.task with
      | some e => if (here s).breaksRunEnd k bank s.tb.ct (s.tb.ct + 1) e then some (17, 0x05) else none
      | none => none

/-- Parity-open comes before any timing rule (R103). -/
def openFirst (isOpen : Bool) (rule : Option (Nat × Nat)) : Option (Nat × Nat) := if isOpen then some (21, 0x06) else rule

/-- The code and the fault of the rule that a timeline command breaks, for every command; on a lost bank PRE, REF and RSW break none
(R82, R84, R86, R103, R108). -/
def ruleBroken (s : State) : Instr → Option (Nat × Nat)
  | .act b _ _ => bankRule s 1 b false
  | .rd b _ => bankRule s 2 b false
  | .wr b _ _ => bankRule s 3 b false
  | .wrb b c _ => openFirst (((here s).bank b).openRow.isSome && s.isTorn (s.time.ch % 32) b (rowOf s b) c) (bankRule s 4 b false)
  | .wrs b c _ _ =>
    openFirst (match s.setRow (s.time.ch % 32) b (s.setMembers 5 (s.time.ch % 32)) with
      | some row => s.stripeOpen (s.time.ch % 32) b row c
      | none => false) (bankRule s 5 b (s.isLost (s.time.ch / 32) (s.time.ch % 32) b))
  | .rdx b c => openFirst (((here s).bank b).openRow.isSome && s.stripeOpen (s.time.ch % 32) b (rowOf s b) c) (bankRule s 6 b false)
  | .pre b => if ((here s).bank b).cracked then none else bankRule s 7 b false
  | .prea => bankRule s 8 0 false
  | .ref b a => if a = 1 then bankRule s 16 0 false else if ((here s).bank b).cracked then none else bankRule s 9 b false
  | .rsw b => if ((here s).bank b).cracked then none else bankRule s 10 b false
  | .gap n => if s.idlesTooLong (s.tb.ct + n + 1) then some (17, 0x05) else none
  | .sync f =>
    if inColumns (s.part (s.task s.time.task).part).owned f = false then some (18, 0x05)
    else if s.idlesTooLong (s.tb.ct + (f + 4096 - s.tb.ct % 4096) % 4096 + 1) then some (17, 0x05) else none
  | _ => none

/-- A row of R84's timing table: its code and figure, the opcodes it runs from and those it runs to, and whether the two are of one bank
(true) or of two (false). -/
structure Spacing where
  code : Nat
  cycles : Nat
  first : List Nat
  second : List Nat
  bank : Option Bool

/-- R84's figures, opcode by opcode; the write of a WRB comes at its C + 4. -/
def spacings : List Spacing :=
  let columns := [2, 3, 4, 5, 6]
  let all := [1, 2, 3, 4, 5, 6, 7, 8, 9, 10, 16]
  [⟨1, 10, [1], columns, some true⟩, ⟨2, 24, [1], [7], some true⟩, ⟨2, 24, [1], [8], none⟩,
    ⟨3, 10, [7], [1, 9, 10], some true⟩, ⟨3, 10, [8], [1, 9, 10], some true⟩, ⟨3, 10, [7, 8], [16], none⟩,
    ⟨4, 34, [1], [1], some true⟩, ⟨5, 2, [1], [1], some false⟩,
    ⟨7, 4, [2, 3, 5, 6], columns, none⟩, ⟨7, 8, [4], columns, none⟩,
    ⟨8, 6, [2, 6], [3, 4, 5], none⟩, ⟨9, 8, [3, 5], [2, 6], none⟩, ⟨9, 12, [4], [2, 6], none⟩,
    ⟨10, 4, [2, 6], [7], some true⟩, ⟨10, 4, [2, 6], [8], none⟩,
    ⟨11, 12, [3, 5], [7], some true⟩, ⟨11, 12, [3, 5], [8], none⟩, ⟨11, 16, [4], [7], some true⟩, ⟨11, 16, [4], [8], none⟩,
    ⟨12, 112, [9], all, some true⟩, ⟨13, 250, [16], all, none⟩, ⟨14, 96, [10], all, some true⟩, ⟨14, 64, [10], columns, some false⟩]

/-- A command that issued at C on a quiet channel whose bank is open on row 0 has left its trace. -/
def traceOf (k b C : Nat) : Channel := (Channel.reset.onBank b fun x => { x with openRow := some 0 }).note k b C

/-- R84's figures at both sides of each: one cycle before its time a second command breaks the row's rule, on its time no longer. The
fifth ACT of 16 cycles breaks rule 6, and of 17 none. Rule 16 stops an ACT, a REF and an RSW of an open bank and a column command to a
closed one. -/
def TimingTable : Prop :=
  (∀ r ∈ spacings, ∀ k ∈ r.first, ∀ k' ∈ r.second, ∀ b b' C, b < 80 → b' < 80 → (∀ e, r.bank = some e → (b = b' ↔ e = true)) →
    ((traceOf k b C).broken k' b' (C + r.cycles - 1)).contains r.code = true) ∧
  (∀ r ∈ spacings, ∀ k ∈ r.first, ∀ k' ∈ r.second, ∀ b b' C, b < 80 → b' < 80 → (∀ e, r.bank = some e → (b = b' ↔ e = true)) →
    ((traceOf k b C).broken k' b' (C + r.cycles)).contains r.code = false) ∧
  (∀ b C, let c := { Channel.reset with acts := [C, C + 4, C + 8, C + 12] }
    (c.broken 1 b (C + 15)).contains 6 = true ∧ (c.broken 1 b (C + 16)).contains 6 = false) ∧
  (∀ (c : Channel) b C lost, (∀ k ∈ [1, 9, 10], (c.broken k b C lost).contains 16 = (c.bank b).openRow.isSome) ∧
    (∀ k ∈ [2, 3, 4, 5, 6], (c.broken k b C lost).contains 16 = ((c.bank b).openRow.isNone && !lost)) ∧
    (∀ k ∈ [7, 8], (c.broken k b C lost).contains 16 = false) ∧
    ((c.broken 16 b C lost).contains 16 = true ↔ ∃ i, i < 80 ∧ (c.bank i).openRow.isSome = true))

end Sys2Proof.Rules

/-- R82, R84, R85, R86, R95, R103, R378: whichever timeline command breaks a rule is not issued: every timeline of its task stops,
HTFSTAT keeps the first violation, no bank of any channel changes, and every brick of the task takes fault 0x05, for parity-open
0x06. Each figure of R84's timing table holds on both of its sides. (Where one command breaks several rules, and on which cycle rules 17 and 18 are broken: log entries 101, 103 and 105, the model's
choices.) -/
def Obligations.TimelineViolations : Prop := Rules.TimingTable ∧
  ∀ (i : Instr) (code fault : Nat) (s : State), ruleBroken s i = some (code, fault) →
    let k := s.task s.time.task
    k.tlStopped = false → s.time.ch < 768 → s.time.ch ∈ k.image.timelines.map (·.1) →
    ∃ t, exec i s = .next t ∧ t.hbm = s.hbm ∧ (t.task s.time.task).tlStopped = true ∧
      (∀ ch ∈ k.image.timelines.map (·.1), ∀ l ∈ (t.channel ch).timelines, l.task = s.time.task → l.running = false) ∧
      (∀ ch i, ((t.channel ch).bank i) = ((s.channel ch).bank i)) ∧
      ((s.part k.part).htfstat.getLsbD 0 = false → let v := (t.part k.part).htfstat.toNat
        field v 0 1 = 1 ∧ field v 1 5 = code % 2 ^ 5 ∧ field v 6 5 = s.time.ch / 32 ∧ field v 11 5 = s.time.ch % 32 ∧
          field v 16 13 = s.time.index % 2 ^ 13 ∧ field v 32 32 = s.tb.ct % 2 ^ 32) ∧
      ((s.part k.part).htfstat.getLsbD 0 = true → (t.part k.part).htfstat = (s.part k.part).htfstat) ∧
      (∀ x ∈ k.mask, (s.brick x).task = some s.time.task → ∃ f ∈ (t.brick x).trap.found, f.code = fault ∧ f.slot = 63)

/-- R100, R101: a parity entry reads its block at its cycle, and four cycles later the block is what was read and the merged delta,
line by line, at the block's address; every other byte of HBM reads as before and the entry is gone. -/
def Sys2Proof.Rules.ParityApplies : Prop :=
  (∀ (ch : Nat) (s : State) (e : ParityEntry), (s.channel ch).parity = [e] → e.read = false → e.s = s.tb.ct →
    s.applicationBroken ch e.bank e.row = 0 →
    ∃ t, exec (.parityApplication ch) s = .next t ∧ t.hbm = s.hbm ∧
      (t.channel ch).parity = [{ e with read := true, old := s.readBlock ⟨ch / 32, ch % 32, e.bank, e.row, e.col⟩ }] ∧
      ((t.channel ch).bank e.bank).wrAt = some (s.tb.ct + 4)) ∧
  (∀ (ch : Nat) (s : State) (e : ParityEntry), (s.channel ch).parity = [e] → e.read = true → e.s + 4 = s.tb.ct →
    e.old.length = 8 → e.delta.length = 8 →
    let at' := s.blockAddr ⟨ch / 32, ch % 32, e.bank, e.row, e.col⟩
    ∃ t, exec (.parityApplication ch) s = .next t ∧ (t.channel ch).parity = [] ∧
      (∀ i, i < 8 → (e.old.getD i (0, false)).2 = false → (e.delta.getD i (0, false)).2 = false →
        readLine t.hbm (at' + 64 * i) = (e.old.getD i (0, false)).1 ^^^ (e.delta.getD i (0, false)).1) ∧
      (∀ a, (a < at' ∨ at' + 512 ≤ a) → readByte t.hbm a = readByte s.hbm a) ∧
      (∀ k, k ≠ ch → t.channel k = s.channel k))

/-- R81, R85, R87 to R89: what a controller does of itself: the timelines of a task that ends stop, a bank left open is closed where
R84 allows it, an idle column gives one refresh of all banks, a frame's end counts the banks that it missed, and a block held 64
cycles leaves the read-return path. -/
def Obligations.ControllersWork : Prop :=
  (∀ (k : Nat) (s : State), (s.task k).tlStopped = false →
    ∃ t, exec (.timelineStop k) s = .next t ∧ (t.task k).tlStopped = true ∧ t.bricks = s.bricks ∧
      (∀ ch ∈ (s.task k).image.timelines.map (·.1), ∀ l ∈ (t.channel ch).timelines, l.task = k → l.running = false) ∧
      ∀ ch i, (t.channel ch).bank i = (s.channel ch).bank i) ∧
  (∀ (ch b k : Nat) (s : State), (s.channel ch).closing = [(b, k)] → ((s.channel ch).bank b).openRow ≠ none →
    inColumns (s.part (s.task k).part).owned s.tb.ct = true → (s.channel ch).broken 7 b s.tb.ct = [] → s.heldOpen ch b k = false →
    (s.channel ch).lastCmd ≠ some s.tb.ct →
    ∃ t, exec (.closingPre ch) s = .next t ∧ (t.channel ch).closing = [] ∧ ((t.channel ch).bank b).openRow = none ∧
      ((t.channel ch).bank b).preAt = some s.tb.ct ∧ (∀ i, i ≠ b → (t.channel ch).bank i = (s.channel ch).bank i) ∧
      (∀ j, j ≠ ch → t.channel j = s.channel j)) ∧
  (∀ (ch : Nat) (s : State), s.trained = true → s.idleColumn ch = true → s.tb.ct % 256 + 250 ≤ 256 →
    (∃ i, i < 80 ∧ ((s.channel ch).bank i).refreshed = false) → (s.channel ch).broken 16 0 s.tb.ct = [] →
    (s.channel ch).lastCmd ≠ some s.tb.ct →
    ∃ t, exec (.idleRefresh ch) s = .next t ∧ (t.channel ch).refAllAt = some s.tb.ct ∧
      (∀ i, i < 80 → ((t.channel ch).bank i).refreshed = true) ∧ (∀ j, j ≠ ch → t.channel j = s.channel j)) ∧
  (∀ (ch : Nat) (s : State), s.trained = true → s.channelTask s.refown ch = none →
    let missed := (List.range 80).filter fun i => !((s.channel ch).bank i).refreshed
    (∀ i ∈ missed, ((s.channel ch).bank i).missedLast = true → ((s.channel ch).bank i).cracked = true) →
    s.faq.length + missed.length ≤ 256 →
    ∃ t, exec (.refreshMiss ch) s = .next t ∧
      tget 0 t.refmiss (ch / 32) = min (tget 0 s.refmiss (ch / 32) + missed.length) 0xFFFFFFFF ∧
      t.faq.length = s.faq.length + missed.length ∧
      (∀ i, i < 80 → (t.channel ch).bank i =
        { (s.channel ch).bank i with missedLast := decide (i ∈ missed), refreshed := false }) ∧
      (∀ j, j ≠ ch → t.channel j = s.channel j) ∧ t.hbm = s.hbm) ∧
  (∀ (ch : Nat) (s : State), ∃ t, exec (.readReturnDrop ch) s = .next t ∧
    t = s.onChannel ch fun c => { c with ret := c.ret.filter fun r => decide (s.tb.ct < r.from' + 63) })

/-- The Hod of a brick after a loss: its HBM units are lost and its window has stopped. -/
def Sys2Proof.Rules.hodLost (x : Brick) : Prop :=
  (∀ w, x.hod.win = some w → w.stopped = true) ∧ x.hod.lost = (List.range x.hod.hbmUnits).map fun i => x.hod.deepUnits + i

/-- R104, R105, R112, R113, R287, R355: a bank of a bonded package that is lost takes its stack's number into BONDMODE; no parity entry is
pending any more and its stripe is torn, where its state gives a mark a meaning (R106); a delta on its way enters none and its stripe is
torn as well (the model's choice: log entry 51); no other bank is lost, no byte of HBM changes; every Hod, of a live brick and of a parked
one, counts its HBM units as lost and its window stops; every brick of a resident task with a timeline section takes fault 0x0B; a
notice goes out for each resident task's step tag; and the Mason is told. A stack that is lost whole loses its 2,560 banks. A further loss
while the package is Cracked or Relaid makes it Cracked; in another stack it sets DOUBLE. -/
def Sys2Proof.Rules.LossEvents : Prop :=
  (∀ (stack ch b : Nat) (s : State), ch < 32 → s.bondMode.toNat % 4 = 0 → ((s.channel (32 * stack + ch)).bank b).cracked = false →
    ∃ t, exec (.lossEvent stack (some (ch, b))) s = .next t ∧ t.bond.lstack = stack ∧ t.bond.double = s.bond.double ∧
      t.bond.losscyc = s.tb.ct % 2 ^ 32 ∧
      ((t.channel (32 * stack + ch)).bank b).cracked = true ∧ ((t.channel (32 * stack + ch)).bank b).openRow = none ∧
      (∀ k i, (k ≠ 32 * stack + ch ∨ i ≠ b) → (t.channel k).bank i = (s.channel k).bank i) ∧
      (∀ q ∈ t.channels, q.2.parity = []) ∧ t.hbm = s.hbm ∧ t.yard = s.yard ∧ Out.retirement stack ∈ t.out ∧
      (let torn := fun ch b row col : Nat => t.stripe ch b row = .bonded ∨ t.stripe ch b row = .dataLost → t.isTorn ch b row col = true
       (∀ k, ∀ e ∈ (s.channel k).parity, torn (k % 32) e.bank e.row e.col) ∧
        ∀ w ∈ s.pendWrites, w.emit = true → torn (w.pch % 32) w.bank w.row w.col) ∧
      (∀ w ∈ t.pendWrites, w.emit = false) ∧ (∀ q ∈ t.bricks, hodLost q.2) ∧ (∀ k ∈ t.tasks, ∀ q ∈ k.2.saved, hodLost q.2) ∧
      (∀ k, (k, s.task k) ∈ s.tasks → (s.task k).resident = true →
        ((s.task k).image.timelines ≠ [] → ∀ x ∈ (s.task k).mask, (s.brick x).task = some k →
          ∃ f ∈ (t.brick x).trap.found, f.code = 0x0B ∧ f.slot = 63) ∧
        ((s.task k).steptag ≠ 0 → Out.notice (s.task k).steptag s.rank s.tb.ct ∈ t.out))) ∧
  (∀ (stack : Nat) (s : State), s.bondMode.toNat % 4 = 0 →
    ∃ t, exec (.lossEvent stack none) s = .next t ∧ t.bond.lstack = stack ∧ t.bond.double = s.bond.double ∧
      t.bond.losscyc = s.tb.ct % 2 ^ 32 ∧ t.bondMode.toNat % 4 = 1 ∧
      (∀ ch b, ch < 32 → b < 80 → ((t.channel (32 * stack + ch)).bank b).cracked = true ∧
        (((s.channel (32 * stack + ch)).bank b).cracked = false → ((t.channel (32 * stack + ch)).bank b).relaid = false ∧
          ((t.channel (32 * stack + ch)).bank b).openRow = none)) ∧
      (∀ k i, k / 32 ≠ stack → (t.channel k).bank i = (s.channel k).bank i) ∧
      (∀ q ∈ t.channels, q.2.parity = []) ∧ t.hbm = s.hbm ∧ Out.retirement stack ∈ t.out) ∧
  (∀ (stack ch b : Nat) (s : State), ch < 32 → s.bondMode.toNat % 4 ≠ 0 → ((s.channel (32 * stack + ch)).bank b).cracked = false →
    ∃ t, exec (.lossEvent stack (some (ch, b))) s = .next t ∧ t.bond.lstack = s.bond.lstack ∧ t.bond.losscyc = s.tb.ct % 2 ^ 32 ∧
      (stack = s.bond.lstack → t.bond.double = s.bond.double) ∧ (stack ≠ s.bond.lstack → t.bond.double = true) ∧
      ((t.channel (32 * stack + ch)).bank b).cracked = true ∧ ((t.channel (32 * stack + ch)).bank b).relaid = false ∧
      t.bondMode.toNat % 4 = 1 ∧ (∀ k i, (k ≠ 32 * stack + ch ∨ i ≠ b) → (t.channel k).bank i = (s.channel k).bank i) ∧
      (∀ q ∈ t.channels, q.2.parity = []) ∧ t.hbm = s.hbm ∧ Out.retirement stack ∈ t.out)

/-- Parity applies, and what a loss leaves. -/
def Obligations.ParityAndLoss : Prop := Rules.ParityApplies ∧ Rules.LossEvents

/-- R96, R110, R115, R94: reads of the queues that the Mason empties give the oldest entry, whose upper half removes it; the rebuild
mark starts at the first stripe of its bank; a bad page waits for the bank's next RSW. -/
def Obligations.MasonServesHbm : Prop :=
  (∀ (s : State) (e : BitVec 128) (rest : List (BitVec 128)), s.faq = e :: rest →
    (∃ t, exec (.faqpopRead false) s = .next t ∧ t.reads.toNat = e.toNat % 2 ^ 64 ∧ t = { s with reads := t.reads }) ∧
    (∃ t, exec (.faqpopRead true) s = .next t ∧ t.reads.toNat = e.toNat / 2 ^ 64 ∧ t = { s with faq := rest, reads := t.reads })) ∧
  (∀ (s : State) (e : BitVec 128) (rest : List (BitVec 128)), s.bond.reports = e :: rest →
    (∃ t, exec (.tornpopRead false) s = .next t ∧ t.reads.toNat = e.toNat % 2 ^ 64 ∧ t = { s with reads := t.reads }) ∧
    (∃ t, exec (.tornpopRead true) s = .next t ∧ t.reads.toNat = e.toNat / 2 ^ 64 ∧
      t = { s with bond := { s.bond with reports := rest }, reads := t.reads })) ∧
  (∀ (s : State), (s.faq = [] → exec (.faqpopRead true) s = .next { s with reads := 0 }) ∧
    (s.bond.reports = [] → exec (.tornpopRead true) s = .next { s with reads := 0 })) ∧
  (∀ (ch v : Nat) (s : State), let bank := v % 2 ^ 7
    ((s.channel (32 * s.bond.lstack + ch)).bank bank).cracked = true → ((s.channel (32 * s.bond.lstack + ch)).bank bank).relaid = false →
    field (tget 0 s.bond.rbmark ch) 23 1 = 0 → field v 23 1 = 1 → ch % 24 ≠ s.bond.lstack →
    ∃ t, exec (.rbmarkWrite ch v) s = .next t ∧ tget 0 t.bond.rbmark ch = bank + 2 ^ 23 ∧
      (∀ c, c ≠ ch → tget 0 t.bond.rbmark c = tget 0 s.bond.rbmark c) ∧ t = { s with bond := { s.bond with rbmark := t.bond.rbmark } }) ∧
  (∀ (stack ch bank row : Nat) (s : State), let k := 32 * stack + ch
    s.badPages.length < 4096 →
    ((s.channel k).bank bank).retire.length < ((List.range 16384).filter (isSpare ((s.channel k).bank bank))).length →
    ∃ t, exec (.bpladdWrite stack ch bank row) s = .next t ∧ t.badPages = s.badPages ++ [(stack, ch, bank, row)] ∧
      ((t.channel k).bank bank).retire = ((s.channel k).bank bank).retire ++ [row] ∧ t.bplFull = s.bplFull)

namespace Sys2Proof.Rules

/-- The code with which verification of an image fails, 0 where it does not: the digest of the key in the header, the signature of
2,420 bytes over header and payload, the header's version (R401). -/
def verifyCode (img : Firmware) : Nat :=
  let key := Config.headerKey img.header
  if (digestOf key).toNat ≠ Config.fusedKeyHash ∨ img.signature.length ≠ 2420 ∨
    Config.mlDsaVerify key (sha3 (img.header ++ img.payload)) img.signature = false then 2
  else if Config.headerVersion img.header < Config.rollbackCounter then 3
  else 0

/-- The code with which calibration fails, 0 where it does not (R400). -/
def trainCode (img : Firmware) : Nat := if img.pllLocked = false then 4 else if 1 < img.untrained.length then 5 else 0

/-- HSEM as it reads (R404). -/
def hsemBits (held : Bool) (owner tie : Nat) : Nat := (if held then 1 else 0) + 2 * owner + 8 * tie

/-- What an agent reads: its 64 bits of the answers. -/
def answer (t : State) (agent : Nat) : Nat := field t.reads.toNat (64 * agent) 64

/-- A frame column is in a set. -/
def hasCol (c j : Nat) : Prop := c / 2 ^ j % 2 = 1

def apart (c d : Nat) : Prop := ∀ j, j < 16 → ¬ (hasCol c j ∧ hasCol d j)

def inside (c d : Nat) : Prop := ∀ j, j < 16 → hasCol c j → hasCol d j

/-- A partition has a resident task (R369). -/
def occupied (s : State) (k : Nat) : Prop := ∃ t ∈ s.tasks, t.2.part = k ∧ t.2.resident = true

/-- A switch of these bricks at once completes in time (R393). -/
def fitsSwitch (s : State) (bricks : List Nat) (fcol savcol : Nat) : Prop := Config.switchFits bricks fcol savcol s.savebase = true

/-- A write answers t: the new state where the condition holds, the old one where not. -/
def written (i : Instr) (s : State) (ok : Prop) (new : State) : Prop :=
  ∃ t, exec i s = .next t ∧ (ok → t = new) ∧ (¬ ok → t = s)

/-- A range entry's HBM extent reaches the save area: 3,072 images from SAVEBASE (R119, R392). -/
def reaches (e : Range) (savebase : Nat) : Prop :=
  ∃ p : Word, e.base.toNat ≤ p.toNat ∧ p.toNat ≤ e.limit.toNat ∧ savebase ≤ (p + e.offset).toNat ∧
    (p + e.offset).toNat < savebase + 3072 * 3473408

/-- A range entry after a write of one of its registers (R119). -/
def rangeStored (old : Range) (r v : Nat) (e : Range) : Prop :=
  let target := field v 1 3
  (r = 0 → e.base.toNat = v / 4096 * 4096 ∧ e = { old with base := e.base }) ∧
  (r = 1 → e.limit.toNat = v / 4096 * 4096 + 4095 ∧ e = { old with limit := e.limit }) ∧
  (r = 2 → e.offset.toNat = v / 4096 * 4096 ∧ e = { old with offset := e.offset }) ∧
  (r = 3 → e = { old with attr := e.attr } ∧ e.attr.toNat < 2 ^ 8 ∧ field e.attr.toNat 0 1 = (if 6 ≤ target then 0 else field v 0 1) ∧
    field e.attr.toNat 1 3 = (if 6 ≤ target then 0 else target) ∧ field e.attr.toNat 4 1 = field v 4 1 ∧
    field e.attr.toNat 5 1 = (if field v 6 1 = 1 then 0 else field v 5 1) ∧ field e.attr.toNat 6 1 = field v 6 1 ∧
    field e.attr.toNat 7 1 = (if target = 2 ∨ target = 3 ∨ target = 4 then field v 7 1 else 0))

/-- A bit of a pollen record of a kind that is reserved or stays zero (R236, R311, R350, R151). -/
def recordZero (kind i : Nat) : Prop :=
  i = 15 ∨ i = 62 ∨ i = 63 ∨ (kind = 0x03 ∧ 88 ≤ i ∧ i ≤ 95) ∨ (kind = 0x04 ∧ 68 ≤ i ∧ i ≤ 71) ∨ (kind = 0x21 ∧ 72 ≤ i ∧ i ≤ 95)

/-- The Mason's state with another record. -/
def onMason (s : State) (f : Mason → Mason) : State := { s with mason := f s.mason }

end Sys2Proof.Rules

/-- R400, R401, R402, R408, R112: a reset starts core 0, which reads the image, and PHASE 1 follows; verification and calibration go on
to PHASE 2 and PHASE 3 (a Course cycle each: log entry 100), and the phase that fails sets PHASE 7 and its FCODE; the accepted kernel
extends measurement 1; the one stack that training left out is kept for memory initialisation (log entry 140), which makes its banks
lost and relaid and no other bank, whatever was lost before, zeroes HBM, leaves no parity pending and no page torn, writes RANKTBL and PATHTBL, and ends in PHASE 4 with READY, or in
PHASE 7 with code 6. What survives a reset is log entry 45's reading, and that measurements are extended from zero at reset is log entry
78's, the model's choice. -/
def Obligations.PowerUp : Prop :=
  (∀ (img : Firmware) (s : State), ∃ t, exec (.reset img) s = .next t ∧ t.mason.ready = false ∧ t.bricks = [] ∧ t.tasks = [] ∧
    t.tb = State.reset.tb ∧ t.parts = State.reset.parts ∧ t.agenda = [] ∧ t.yard = [] ∧ t.hbm = s.hbm ∧ t.badPages = s.badPages ∧
    t.mason.cores = [0] ∧ tget 0 t.mason.measure 0 =
      digestOf (wordBytes 32 0 ++ wordBytes 32 (BitVec.ofNat 256 Config.romDigest).toNat) ∧ (img.readable = true → t.mason.phase = 1 ∧ t.mason.fcode = 0 ∧ t.mason.boot = some img) ∧
    (img.readable = false → t.mason.phase = 7 ∧ t.mason.fcode = 1 ∧ t.mason.boot = none)) ∧
  (∀ s : State, s.phase 1 = s.powerUp.attest.takeInputs 1) ∧
  (∀ (img : Firmware) (s : State), s.mason.boot = some img → s.mason.phase = 1 → let t := s.powerUp
    (verifyCode img ≠ 0 → t = onMason s fun m => { m with phase := 7, fcode := verifyCode img, ready := false, boot := none }) ∧
    (verifyCode img = 0 → t.mason.fwver = Config.headerVersion img.header ∧
      tget 0 t.mason.measure 1 =
        digestOf (wordBytes 32 (tget 0 s.mason.measure 1).toNat ++ wordBytes 32 (digestOf (img.header ++ img.payload)).toNat) ∧
      (∀ i, i ≠ 1 → tget 0 t.mason.measure i = tget 0 s.mason.measure i) ∧
      t = onMason s fun m => { m with phase := 2, fwver := t.mason.fwver, measure := t.mason.measure })) ∧
  (∀ (img : Firmware) (s : State), s.mason.boot = some img → s.mason.phase = 2 → let t := s.powerUp
    (trainCode img ≠ 0 → t = onMason s fun m => { m with phase := 7, fcode := trainCode img, ready := false, boot := none }) ∧
    (trainCode img = 0 → t = onMason s fun m => { m with phase := 3, boot := none, untrained := img.untrained.head? })) ∧
  (∀ (ranks : List (Nat × Nat)) (paths : List (Nat × Nat × Nat)) (s : State), s.mason.phase = 3 →
    (exec (.memoryInitialisation ⟨false, ranks, paths⟩) s = .next (onMason s fun m => { m with phase := 7, fcode := 6, ready := false, boot := none })) ∧
    ∃ t, exec (.memoryInitialisation ⟨true, ranks, paths⟩) s = .next t ∧ t.mason = { s.mason with phase := 4, ready := true } ∧ t.hbm = [] ∧
      (∀ r v, (r, v) ∈ ranks → (∀ w, (r, w) ∈ ranks → w = v) → tget 0 t.ranktbl r = v % 2 ^ 14) ∧
      (∀ r, (∀ v, (r, v) ∉ ranks) → tget 0 t.ranktbl r = tget 0 s.ranktbl r) ∧
      (∀ r port lat, (r, port, lat) ∈ paths → (∀ q, (r, q) ∈ paths → q = (port, lat)) →
        tget 0 t.pathtbl r = if 36 ≤ port then 0 else port + ((lat + 15) / 16 + 5) % 2 ^ 10 * 2 ^ 6) ∧
      (∀ r, (∀ q, (r, q) ∉ paths) → tget 0 t.pathtbl r = tget 0 s.pathtbl r) ∧
      t.hbmUe = [] ∧ t.badPages = s.badPages ∧ t.bricks = s.bricks ∧
      (∀ l, s.mason.untrained = some l → t.bond.lstack = l) ∧
      ∀ ch, (t.channel ch).parity = [] ∧ (t.channel ch).torn = [] ∧ ∀ b, b < 80 →
        (((t.channel ch).bank b).cracked = true ↔ s.mason.untrained = some (ch / 32)) ∧
        (((t.channel ch).bank b).relaid = true ↔ s.mason.untrained = some (ch / 32)))

/-- R404: a read of a free semaphore returns 0 and takes it; of several readers on one cycle the first one from TIE on wins, TIE moves
past it, and the others read what it left; a read of a held one changes nothing; only the owner's write of 0 releases it. At reset it is
free and TIE names port 0. -/
def Obligations.SemaphoreServes : Prop :=
  (∀ (agents : List Nat) (s : State), s.mason.hsemHeld = true → s.mason.hsemOwner < 3 → s.mason.hsemTie < 3 →
    ∃ t, exec (.hsemRead agents) s = .next t ∧ t = { s with reads := t.reads } ∧
      ∀ a ∈ agents, a < 3 → answer t a = hsemBits true s.mason.hsemOwner s.mason.hsemTie) ∧
  (∀ (agents : List Nat) (w : Nat) (s : State), s.mason.hsemHeld = false → s.mason.hsemTie < 3 → w ∈ agents → w < 3 →
    (∀ a ∈ agents, a < 3 ∧ (w + 3 - s.mason.hsemTie) % 3 ≤ (a + 3 - s.mason.hsemTie) % 3) →
    ∃ t tie, ((∀ a ∈ agents, a = w) → tie = s.mason.hsemTie) ∧ ((∃ a ∈ agents, a ≠ w) → tie = (w + 1) % 3) ∧
      exec (.hsemRead agents) s = .next t ∧
      t = { onMason s fun m => { m with hsemHeld := true, hsemOwner := w, hsemTie := tie } with reads := t.reads } ∧
      answer t w = 0 ∧ ∀ a ∈ agents, a ≠ w → answer t a = hsemBits true w tie) ∧
  State.reset.mason.hsemTie = 0 ∧ State.reset.mason.hsemHeld = false ∧
  (∀ (agent v : Nat) (s : State),
    (s.mason.hsemOwner = agent → v % 2 = 0 → exec (.hsemWrite agent v) s = .next (onMason s fun m => { m with hsemHeld := false })) ∧
    (s.mason.hsemOwner ≠ agent ∨ v % 2 = 1 → exec (.hsemWrite agent v) s = .next s))

/-- R407: eight frames in a row above LIMIT set level 1 and eight below clear it; a frame above 1.1 times LIMIT, and coolant or a
junction outside its bounds, halt the package, which acts as a lost chip. -/
def Sys2Proof.Rules.PowerClamp : Prop :=
  (∀ (watts : Nat) (s : State), ∃ t, exec (.powerFrame watts) s = .next t ∧ t.mason.pwrLast = watts ∧
    (let crosses := if s.mason.pwrL1 then watts < s.mason.pwrLimit else s.mason.pwrLimit < watts
     (¬ crosses → t.mason.pwrRun = 0 ∧ t.mason.pwrL1 = s.mason.pwrL1) ∧
     (crosses → s.mason.pwrRun < 7 → t.mason.pwrRun = s.mason.pwrRun + 1 ∧ t.mason.pwrL1 = s.mason.pwrL1) ∧
     (crosses → s.mason.pwrRun = 7 → t.mason.pwrRun = 0 ∧ t.mason.pwrL1 = !s.mason.pwrL1)) ∧
    t = { onMason s fun m => { m with pwrLast := watts, pwrRun := t.mason.pwrRun, pwrL1 := t.mason.pwrL1, pwrOver := t.mason.pwrOver } with agenda := t.agenda } ∧
    t.mason.pwrOver = decide (11 * s.mason.pwrLimit < 10 * watts) ∧
    (10 * watts ≤ 11 * s.mason.pwrLimit → t.agenda = s.agenda) ∧
    (11 * s.mason.pwrLimit < 10 * watts → ∃ i f j, t.agenda = .event (.clampHalt i f j) :: s.agenda)) ∧
  (∀ (inlet flow junction : Nat) (s : State), (45 < inlet ∨ flow < 8 ∨ 105 < junction ∨ s.mason.pwrOver = true) →
    exec (.clampHalt inlet flow junction) s =
      .next { onMason s fun m => { m with pwrL2 := true } with out := s.out ++ [.removed] }) ∧
  (∀ s : State, s.mason.pwrL2 = true → s.inputs = [] → step s = .fault .clockHalted)

/-- R408, R406, R409, R136, R400: ATTGO begins a report, which signs the nonce, the measurements and BOOTSTAT into ATTREP as the next
Course cycle begins (when is the model's choice: log entry 136), and ATTNONCE stays while it is made; a measurement of the kernel's is extended, the
others are not; the counters that a read clears are read and cleared; ADMLOCK is set; below PHASE 4 these do not answer (of the write of
ADMLOCK, the model's reading: log entry 85). -/
def Sys2Proof.Rules.MasonReadsAndMeasures : Prop :=
  (∀ (s : State), let report := wordBytes 32 s.mason.nonce.toNat ++
      ((List.range 8).flatMap fun i => wordBytes 32 (tget 0 s.mason.measure i).toNat) ++ wordBytes 8 s.bootStat.toNat
    exec .attgo s = .next (onMason s fun m => { m with attesting := true }) ∧
    (s.mason.attesting = true → s.attest = { onMason s fun m => { m with
      attrep := report ++ Config.mlDsaSign (sha3 report), attesting := false } with
      out := s.out ++ [.attest report (Config.mlDsaSign (sha3 report))] }) ∧ (s.mason.attesting = false → s.attest = s)) ∧
  (∀ (i : Nat) (v : BitVec 256) (s : State), (i < 2 ∨ 7 < i → exec (.measurementExtend i v) s = .next s) ∧
    (2 ≤ i → i ≤ 7 → ∃ t, exec (.measurementExtend i v) s = .next t ∧
      tget 0 t.mason.measure i = digestOf (wordBytes 32 (tget 0 s.mason.measure i).toNat ++ wordBytes 32 v.toNat) ∧
      (∀ j, j ≠ i → tget 0 t.mason.measure j = tget 0 s.mason.measure j) ∧
      t = onMason s fun m => { m with measure := t.mason.measure })) ∧
  (∀ (die : Nat) (s : State), ∃ t, exec (.ydcecntRead die) s = .next t ∧ t.reads.toNat = tget 0 s.ydcecnt die % 2 ^ 256 ∧
    tget 0 t.ydcecnt die = 0 ∧ (∀ d, d ≠ die → tget 0 t.ydcecnt d = tget 0 s.ydcecnt d) ∧
    t = { s with ydcecnt := t.ydcecnt, reads := t.reads }) ∧
  (∀ (n : Nat) (s : State), s.mason.phase < 4 → exec (.lnkretryRead n) s = .next { s with reads := 0 } ∧
    exec (.admitRead n) s = .next { s with reads := 0 } ∧ exec .admlockWrite s = .next s) ∧
  (∀ (port : Nat) (s : State), 4 ≤ s.mason.phase → ∃ t, exec (.lnkretryRead port) s = .next t ∧ field t.reads.toNat 0 32 = tget 0 s.mason.retryCount port % 2 ^ 32 ∧
    field t.reads.toNat 32 32 = tget 0 s.mason.failCount port % 2 ^ 32 ∧ tget 0 t.mason.retryCount port = 0 ∧
    tget 0 t.mason.failCount port = 0 ∧
    (∀ p, p ≠ port → tget 0 t.mason.retryCount p = tget 0 s.mason.retryCount p ∧ tget 0 t.mason.failCount p = tget 0 s.mason.failCount p) ∧
    t = { onMason s fun m => { m with retryCount := t.mason.retryCount, failCount := t.mason.failCount } with reads := t.reads }) ∧
  (∀ (n : Nat) (s : State), 4 ≤ s.mason.phase → ∃ t, exec (.admitRead n) s = .next t ∧ field t.reads.toNat 0 32 = tget 0 s.mason.admitReg n % 2 ^ 32 ∧
    field t.reads.toNat 32 32 = tget 0 s.mason.txdeny n % 2 ^ 16 ∧ tget 0 t.mason.txdeny n = 0 ∧
    (∀ p, p ≠ n → tget 0 t.mason.txdeny p = tget 0 s.mason.txdeny p) ∧
    t = { onMason s fun m => { m with txdeny := t.mason.txdeny } with reads := t.reads }) ∧
  (∀ (s : State), 4 ≤ s.mason.phase → exec .admlockWrite s = .next (onMason s fun m => { m with admlock := true }))

/-- R27, R78, R95, R119, R137, R283, R393: a write that its rule refuses leaves every register as it was, and any other is stored: the
frame columns, the Hod columns, the save columns, SAVEBASE, a range entry, a multicast window and a partition's bricks. -/
def Obligations.PartitionSettings : Prop :=
  (∀ (k v : Nat) (s : State), let c := field v 0 16
    written (.fcolWrite k v) s (¬ occupied s k ∧ (∀ q ∈ s.parts, q.1 ≠ k → apart q.2.fcol c) ∧ inside (s.part k).hodcol c ∧
      inside (s.part k).savcol c ∧ fitsSwitch s (s.part k).bricks c (s.part k).savcol) (s.onPart k fun p => { p with fcol := c })) ∧
  (∀ (k v : Nat) (s : State), let c := field v 0 16
    written (.hodcolWrite k v) s (inside c (s.part k).fcol ∧ apart c (s.part k).savcol) (s.onPart k fun p => { p with hodcol := c })) ∧
  (∀ (k v : Nat) (s : State), let c := field v 0 16
    written (.savcolWrite k v) s (inside c (s.part k).fcol ∧ apart c (s.part k).hodcol ∧ fitsSwitch s (s.part k).bricks (s.part k).fcol c)
      (s.onPart k fun p => { p with savcol := c })) ∧
  (∀ (v : Nat) (s : State), written (.savebaseWrite v) s
    (∀ q ∈ s.parts, Config.switchFits q.2.bricks q.2.fcol q.2.savcol v = true) { s with savebase := v }) ∧
  (∀ (k i r v : Nat) (s : State), r < 4 → v < 2 ^ 64 → s.savebase < 2 ^ 64 →
    ∃ e, rangeStored (tget Range.reset (s.part k).ranges i) r v e ∧
      written (.rangeEntryWrite k i r v) s
        (¬ (field (tget Range.reset (s.part k).ranges i).attr.toNat 0 1 = 1 ∧ occupied s k) ∧
          ¬ (field e.attr.toNat 0 1 = 1 ∧ field e.attr.toNat 1 3 = 0 ∧ reaches e s.savebase))
        (s.onPart k fun p => { p with ranges := tput Range.reset p.ranges i e })) ∧
  (∀ (die w v : Nat) (s : State), ∃ win : Word,
    (field win.toNat 0 28 = field v 0 28 ∧ field win.toNat 28 4 = 0 ∧ field win.toNat 32 15 = field v 32 15 ∧ field win.toNat 47 1 = 0 ∧
      field win.toNat 48 15 = field v 48 15 ∧ field win.toNat 63 1 = 0) ∧
    written (.mcwinWrite die w v) s
      (¬ occupied s (field (tget (0 : Word) s.mcwin (16 * die + w)).toNat 25 3) ∧
        ∀ b, b < 24 → v / 2 ^ b % 2 = 1 → 24 * die + b ∈ (s.part (field v 25 3)).bricks)
      { s with mcwin := tput 0 s.mcwin (16 * die + w) win }) ∧
  (∀ (k : Nat) (bricks : List Nat) (s : State), let bs := (List.range 768).filter fun b => decide (b ∈ bricks)
    written (.partitionChange k bricks) s
      (¬ occupied s k ∧ (∀ q ∈ s.parts, q.1 ≠ k → ∀ b ∈ q.2.bricks, b ∉ bs) ∧ fitsSwitch s bs (s.part k).fcol (s.part k).savcol)
      (s.onPart k fun p => { p with bricks := bs }))

/-- R11, R366, R376, R403, R405 to R408, R390: a write of a register that the Mason, or a host, may write stores its fields; BRKCTL starts
its action; a write that neither may make changes nothing; a write through a state window replaces one location of a trapped
brick and nothing else, and the window and the registers read as they stand. The bound of HTALLOC.LEN is the model's (log entry 84). -/
def Sys2Proof.Rules.MasonWrites : Prop :=
  (∀ (k v : Nat) (s : State),
    exec (.registerWrite 2 (.htalloc k) v) s = .next (s.onPart k fun p => { p with htBase := field v 0 13, htLen := min 8192 (field v 16 14) }) ∧
    exec (.registerWrite 2 .hctl v) s = .next { s with refown := field v 0 3 } ∧
    exec (.registerWrite 2 .hrht v) s = .next { s with hrht := field v 0 16 } ∧
    exec (.registerWrite 2 .bondmode v) s = .next { s with bond := { s.bond with rebuild := field v 8 1 == 1 } } ∧
    exec (.registerWrite 2 (.vptroot k) v) s = .next (s.onPart k fun p => { p with vptroot := BitVec.ofNat 64 v }) ∧
    exec (.registerWrite 2 (.slice k) v) s = .next (s.onPart k fun p => { p with sliceNew := some (max 1 (field v 0 20)) }) ∧
    exec (.registerWrite 2 (.pathtbl k) v) s =
      .next { s with pathtbl := tput 0 s.pathtbl k (if 36 ≤ field v 0 6 then 0 else field v 0 16) }) ∧
  (∀ (stack v : Nat) (s : State), ∃ t, exec (.registerWrite 2 (.tornovf stack) v) s = .next t ∧ t = { s with channels := t.channels } ∧
    (∀ ch, ch < 32 → t.channel (32 * stack + ch) =
      { s.channel (32 * stack + ch) with tornOvf := (s.channel (32 * stack + ch)).tornOvf && v / 2 ^ ch % 2 == 0 }) ∧
    ∀ k, (k < 32 * stack ∨ 32 * stack + 32 ≤ k) → t.channel k = s.channel k) ∧
  (∀ (r v : Nat) (s : State), ∃ t, exec (.registerWrite 2 (.ranktbl r) v) s = .next t ∧ t = { s with ranktbl := t.ranktbl, rank := t.rank } ∧
    tget 0 t.ranktbl r = field v 0 14 ∧ (∀ q, q ≠ r → tget 0 t.ranktbl q = tget 0 s.ranktbl q) ∧
    let own := fun e : Nat × Nat => field e.2 12 1 = 1 ∧ field e.2 0 12 = s.station
    (∃ e ∈ t.ranktbl, own e ∧ e.1 = t.rank) ∨ ((∀ e ∈ t.ranktbl, ¬ own e) ∧ t.rank = s.rank)) ∧
  (∀ (b v : Nat) (s : State), let cleared := if v / 8 % 2 = 1 then s.onBrick b fun x => { x with trap := { x.trap with refused := false } } else s
    let starts := fun i => { cleared with agenda := Todo.event i :: cleared.agenda }
    exec (.registerWrite 2 (.brkctl b) v) s = .next (match v % 4 with
      | 1 => starts (.brkctlResume b)
      | 2 => starts (.brkctlEnd b)
      | 3 => starts (.brkctlPark b)
      | _ => cleared)) ∧
  (∀ (p i n v : Nat) (s : State), p < 2 → 4 ≤ s.mason.phase →
    (let window := field v 0 3 + 2 ^ 12 * field v 12 52 + 2 ^ 64 * 0xFFF + 2 ^ 76 * field v 76 52
     exec (.registerWrite p (.hdmaw p i) v) s = .next (onMason s fun m => { m with hdmaw := tput (0xFFF * 2 ^ 64) m.hdmaw (8 * p + i) window })) ∧
    exec (.registerWrite p .pwrlim v) s = .next (onMason s fun m => { m with pwrLimit := min 4800 (field v 0 13) }) ∧
    (s.mason.admlock = true → exec (.registerWrite p (.admitReg n) v) s = .next s) ∧
    (s.mason.admlock = false → apart (field v 0 16) (field v 16 16) →
      exec (.registerWrite p (.admitReg n) v) s = .next (onMason s fun m => { m with admitReg := tput 0 m.admitReg n (field v 0 32) })) ∧
    (s.mason.admlock = false → ¬ apart (field v 0 16) (field v 16 16) →
      exec (.registerWrite p (.admitReg n) v) s = .next (onMason s fun m => { m with admitReg := tput 0 m.admitReg n (field v 0 16) }))) ∧
  (∀ (p v : Nat) (s : State), p < 2 →
    exec (.registerWrite p .attnonce v) s =
      .next (if s.mason.attesting then s else onMason s fun m => { m with nonce := BitVec.ofNat 256 v }) ∧
    (∀ r, (r = .hctl ∨ r = .hrht ∨ r = .bondmode ∨ ∃ k, r = .htalloc k ∨ r = .vptroot k ∨ r = .slice k ∨ r = .brkctl k ∨ r = .ranktbl k) →
      exec (.registerWrite p r v) s = .next s) ∧
    (∀ r, (r = .pwrlim ∨ ∃ k i, r = .admitReg k ∨ r = .hdmaw k i) → exec (.registerWrite 2 r v) s = .next s)) ∧
  (∀ (b : Nat) (e : WindowEdit) (s : State), let x := s.brick b
    (x.trap.trapped = false → exec (.stateWindowWrite b e) s = .next s) ∧
    (x.trap.trapped = true → ∃ t, exec (.stateWindowWrite b e) s = .next t ∧ t = { s with bricks := t.bricks } ∧
      (∀ c, c ≠ b → t.brick c = s.brick c) ∧ (t.brick b).trap = x.trap ∧ (t.brick b).task = x.task ∧
      (t.brick b).held.length = x.held.length ∧
      ((∀ k i v, e ≠ .heldWord k i v) → (∀ k r c, e ≠ .heldTime k r c) → (∀ k i v p, e ≠ .heldLine k i v p) → (t.brick b).held = x.held) ∧
      (∀ i v, e = .sreg i v → i ∉ (t.brick b).sc.ue ∧
        t.brick b = { x with sc := { x.sc with s := tput 0 x.sc.s i v, ue := (t.brick b).sc.ue } }) ∧
      (∀ i v, e = .qpred i v → t.brick b = { x with sc := { x.sc with q := tput false x.sc.q i v } }) ∧
      (∀ c i v, e = .vreg c i v → tget 0 (t.brick b).vec.v (1024 * c + i) = v ∧ (t.brick b).sc = x.sc ∧ (t.brick b).ring = x.ring ∧
        (t.brick b).seq = x.seq ∧ (t.brick b).flights = x.flights) ∧
      (∀ line v, e = .ringLine line v → readLine (t.brick b).ring.mem (64 * line) = v ∧ (t.brick b).sc = x.sc ∧
        (t.brick b).vec = x.vec ∧ (t.brick b).seq = x.seq ∧ (t.brick b).flights = x.flights) ∧
      (∀ i code, e = .format i code → t.brick b = { x with formats := tput 0 x.formats i (field code 0 4) }) ∧
      (∀ v, e = .pc v → t.brick b = { x with seq := { x.seq with pc := field v 0 34 } }) ∧
      (∀ u v, e = .slatch u v → t.brick b = { x with sc := { x.sc with latch := tput 0 x.sc.latch u v } }) ∧
      (∀ k r, e = .pollen k r → ∃ w, t.brick b = { x with pollen := x.pollen.set k w } ∧
        (∀ i, i < 128 → ¬ recordZero (field r.toNat 0 8) i → w.getLsbD i = r.getLsbD i) ∧
        ∀ i, recordZero (field r.toNat 0 8) i → w.getLsbD i = false) ∧
      (∀ v, e = .activeBank v → t.brick b = { x with vec := { x.vec with activeBank := v % 2 } }) ∧
      (∀ h d, e = .hodUnits h d → t.brick b = { x with hod := { x.hod with hbmUnits := h, deepUnits := d } }) ∧
      (∀ o n k l, e = .region o n k l → t.brick b = { x with seq := { x.seq with origin := o, offset := n, slack := k, lag := l % 2 ^ 32 } }) ∧
      (∀ i v, e = .barrier i v → t.brick b = { x with var := { x.var with barriers := tput 0 x.var.barriers i (field v 0 8) } }))) ∧
  (∀ (b : Nat) (s : State), let x := s.brick b
    (x.trap.trapped = false → ∀ n, s.windowLine b n = none) ∧
    (x.trap.trapped = true → (∀ n, n < 54272 → ∃ l, s.windowLine b n = some l) ∧
      (∀ n, n < 32768 → s.windowLine b n = some (readLine x.ring.mem (64 * n))) ∧
      (∀ c i, c < 8 → i < 1024 → s.windowLine b (33280 + 1024 * c + i) = some (tget 0 x.vec.v (1024 * c + i))) ∧
      (∀ n, n < 2048 → s.windowLine b (46352 + n) = some (readLine x.mx.om (64 * n))) ∧
      (∀ k, k < 32 → ∃ l, s.windowLine b (33088 + k) = some l ∧
        ∀ i, i < 8 → field l.toNat (64 * i) 64 = (x.trap.snap.getD (8 * k + i) 0).toNat) ∧
      (∀ line v t, line < 32768 → exec (.stateWindowWrite b (.ringLine line v)) s = .next t → t.windowLine b line = some v) ∧
      ∀ c i v t, c < 8 → i < 1024 → exec (.stateWindowWrite b (.vreg c i v)) s = .next t → t.windowLine b (33280 + 1024 * c + i) = some v)) ∧
  (∀ s : State,
    (∀ b, let w := s.masonRead (.brkctl b)
      field w 0 2 = 0 ∧ field w 2 1 = (s.brick b).trap.trapped.toNat ∧ field w 3 1 = (s.brick b).trap.refused.toNat ∧
        field w 32 32 = (s.brick b).trap.rescyc % 2 ^ 32) ∧
    (let w := s.masonRead .pwrlim
     field w 0 13 = s.mason.pwrLimit % 2 ^ 13 ∧ field w 13 1 = s.mason.pwrL1.toNat ∧ field w 14 1 = s.mason.pwrL2.toNat ∧
      field w 32 13 = s.mason.pwrLast % 2 ^ 13) ∧
    (∀ k q, let w := s.masonRead (.qstat k q)
      let x := (s.part k).queue q
      field w 0 5 = s.queueCount k q % 2 ^ 5 ∧ field w 5 3 = x.base % 2 ^ 3 ∧ field w 8 3 = min 7 (x.base + x.miss / 8) ∧
        field w 11 6 = x.miss % 2 ^ 6 ∧ field w 32 32 = x.overrun % 2 ^ 32) ∧
    s.masonRead .attrep = bytesWord s.mason.attrep ∧ s.masonRead .bondmode = s.bondMode.toNat) ∧
  ∀ p i, State.reset.masonRead (.hdmaw p i) = 0xFFF * 2 ^ 64

/-- Writes of the Mason and the hosts, what registers read, the power clamp, attestation and measurements. -/
def Obligations.MasonAndHostWrites : Prop := Rules.MasonWrites ∧ Rules.PowerClamp ∧ Rules.MasonReadsAndMeasures
namespace Sys2Proof.Rules

/-- Every brick that holds a task that runs or is parked is frozen by a DRIFT on the cycle that ends (R335, R369). -/
def driftsTogether (s : State) : Prop :=
  ∀ q ∈ s.tasks, q.2.state = .running ∨ q.2.state = .parked → ∀ b ∈ q.2.mask,
    (s.brick b).frz.driftUntil ≠ 0 ∧ s.tb.ct ≤ (s.brick b).frz.driftUntil ∧ b ∉ s.ran

/-- The tick that follows is held (R335). -/
def tickHeld (s : State) : Prop := 16 ≤ s.tb.phi ∧ s.tb.lastHeld = false ∧ driftsTogether s

/-- Markers have arrived at every marker period (R357; the four cycles of log entry 44). -/
def marked (s : State) : Prop := ∃ m, s.tb.lastMarker = some m ∧ s.tb.ct + 1 ≤ m + 4096 + s.tb.lm + 4

/-- The package is the Drerel root: RANKTBL entry 0 is valid and names its station (R336, R358, R409). -/
def roots (s : State) : Prop := field (tget 0 s.ranktbl 0) 12 1 = 1 ∧ field (tget 0 s.ranktbl 0) 0 12 = s.station

/-- PHERR, TBSTAT with its OVER, the rank, BONDMODE and BOOTSTAT as MFSR reads them on a cycle: as the cycle began (R115, R197, R357,
R400). -/
def registersBegan (s : State) (r : Table Word) : Prop :=
  let at' (n : Nat) : Nat := (tget (0 : Word) r n).toNat
  (at' 0x004 : Int) = s.tb.phi % 2 ^ 16 ∧ field (at' 0x02D) 0 32 = min s.tb.held 0xFFFFFFFF ∧
  field (at' 0x02D) 32 1 = s.tb.lock.toNat ∧ field (at' 0x02D) 33 1 = s.tb.wasOver.toNat ∧
  field (at' 0x02C) 0 12 = s.rank % 2 ^ 12 ∧ tget 0 r 0x042 = s.bondMode ∧ tget 0 r 0x033 = s.bootStat

/-- Two marker periods have passed without the parent's markers as the tick comes (R355; the cycles beyond them: log entry 44). -/
def parentLost (s : State) (r : Nat) : Prop :=
  ∃ m, s.tb.lastMarker = some m ∧ s.tb.parent = some r ∧ ¬ roots s ∧ m + 2 * 4096 + s.tb.lm + 5 = s.tb.ct + 1

/-- The package has sent a slip notice, which it receives back from the root (R354). -/
def noticeSent (s : State) (tag rank : Nat) (t : State) : Prop :=
  t.out = s.out ++ [.notice tag rank s.tb.ct] ∧
  (s.tb.lm = 0 → t = { s with out := t.out, agenda := .event (.slipNotice false ⟨tag, rank⟩) :: s.agenda }) ∧
  (s.tb.lm ≠ 0 → t = { s with out := t.out, inputs := s.inputs ++ [(s.tb.ct + 2 * s.tb.lm, .slipNotice false ⟨tag, rank⟩)] })

/-- A notice, or a lost phase, names a resident task (R354, R337). -/
def namesTask (s : State) (tag k : Nat) : Prop :=
  (k, s.task k) ∈ s.tasks ∧ (s.task k).resident = true ∧ (s.task k).steptag ≠ 0 ∧ ((s.task k).steptag = tag ∨ tag = 0xFFFFFFFF)

/-- A brick on which such a task runs. -/
def slipsOn (s : State) (tag b : Nat) : Prop := ∃ k, namesTask s tag k ∧ b ∈ (s.task k).mask ∧ (s.brick b).task = some k

/-- A brick that has taken no course slip (log entry 46). -/
def steady (x : Brick) : Prop := ¬ (x.trap.trapped = true ∧ x.trap.code = 0x0C) ∧ ∀ f ∈ x.trap.found, f.code ≠ 0x0C

/-- A course slip with its link cause is found on a brick (R353, R357, R389). -/
def slipFound (s t : State) (b cause rank : Nat) (own : Bool) : Prop :=
  ∃ f ∈ (t.brick b).trap.found, f.code = 0x0C ∧ f.slot = 63 ∧ f.cycle = s.tb.ct ∧ f.notice = own ∧ f.regs = [(0x02A, lnfWord s cause 0 rank)]

end Sys2Proof.Rules

/-- R334 to R337, R340, R353 to R355, R357: a held tick lowers the phase by one cycle and changes nothing else, any other tick is a Course
cycle and its work begins, and a parent whose markers have been missing for two periods is lost; a marker sets the phase and goes on,
and a lead of four cycles is a course slip of every step's tasks; the root sends its markers; a lost neighbour is a notice; a notice
on its way up goes on until the root, and from there, or on its way down, it fences its rank, ends the held commands of the step's
tasks, which slip with cause 9, clears the step's norms and goes on; calibration fills PATHTBL, gives Lm and sets CT. (The four cycles beyond a marker's period are log
entry 44's, a second slip of a brick is log
entry 46's, a hold where no task is resident is log entry 82's: the model's choices.) -/
def Obligations.CourseTimeAndNotices : Prop :=
  (∀ s : State, tickHeld s → exec .courseCycleTick s =
    .next { s with tb := { s.tb with phi := s.tb.phi - 16, held := min (s.tb.held + 1) 0xFFFFFFFF, lastHeld := true } }) ∧
  (∀ s : State, ¬ tickHeld s → ∃ t, exec .courseCycleTick s = .next t ∧
    t = { s with
      tb := { s.tb with ct := s.tb.ct + 1, lastHeld := false, lock := t.tb.lock }
      agenda := t.agenda
      regsAt := t.regsAt
      partsAt := s.parts
      overAt := s.tb.overClear
      normsAt := [] } ∧
    (t.tb.lock = true ↔ s.tb.lock = true ∧ marked s) ∧ registersBegan s t.regsAt ∧
    (∀ r, parentLost s r → t.agenda = s.agenda ++ .event (.markerLoss r) :: (List.range 15).map fun n => .phase (n + 1)) ∧
    ((∀ r, ¬ parentLost s r) → t.agenda = s.agenda ++ (List.range 15).map fun n => .phase (n + 1))) ∧
  (∀ (m f : Nat) (s : State), let phi : Int := 16 * ((s.tb.ct : Int) - m - s.tb.lm) + f
    ∃ t, exec (.drerelMarker m f) s = .next t ∧ t.tb.phi = phi ∧ t.tb.lock = true ∧ t.tb.ct = s.tb.ct ∧
      (¬ roots s → Out.forward m ∈ t.out) ∧
      (phi < 64 → t = { s with tb := { s.tb with phi := phi, lastMarker := some m, lock := true }, out := t.out } ∧
        (roots s → t.out = s.out) ∧ (¬ roots s → t.out = s.out ++ [.forward m])) ∧
      (64 ≤ phi → t.tb.wasOver = true ∧ t.tb.overClear = [] ∧ ∀ b, (slipsOn s 0xFFFFFFFF b → steady (s.brick b) → slipFound s t b 10 0 true) ∧
        ((∀ q ∈ s.tasks, (s.brick b).task = some q.1 → q.2.resident = false ∨ q.2.steptag = 0) → t.brick b = s.brick b))) ∧
  (∀ s : State, (¬ roots s → exec .drerelMarkerSend s = .next s) ∧
    (roots s → s.tb.ct % 4096 = 0 → exec .drerelMarkerSend s = .next { s with out := s.out ++ [.marker s.tb.ct] })) ∧
  (∀ (port rank : Nat) (s : State), Out.notice 0xFFFFFFFF rank s.tb.ct ∉ s.out →
    (∃ t, exec (.linkLoss port rank) s = .next t ∧ noticeSent s 0xFFFFFFFF rank t) ∧
    (∃ t, exec (.markerLoss rank) s = .next t ∧ noticeSent { s with tb := { s.tb with lock := false } } 0xFFFFFFFF rank t)) ∧
  (∀ (tag rank : Nat) (s : State), ¬ roots s →
    exec (.slipNotice true ⟨tag, rank⟩) s = .next { s with out := s.out ++ [.relay true tag rank] }) ∧
  (∀ (up : Bool) (tag rank : Nat) (s : State), (up = true → roots s) →
    ∃ t, exec (.slipNotice up ⟨tag, rank⟩) s = .next t ∧ Out.relay false tag rank ∈ t.out ∧
    field (tget 0 t.ranktbl rank) 13 1 = 1 ∧ field (tget 0 t.ranktbl rank) 0 13 = field (tget 0 s.ranktbl rank) 0 13 ∧
    (∀ r, r ≠ rank → tget 0 t.ranktbl r = tget 0 s.ranktbl r) ∧ t.hbm = s.hbm ∧ t.yard = s.yard ∧ t.channels = s.channels ∧
    (∀ b, slipsOn s tag b → (s.brick b).trap.trapped = false →
      (t.brick b).held = ((s.brick b).held.filter fun h => decide (0x50 ≤ h.opc) && decide (h.opc ≤ 0x5A) && h.done) ∧
      (steady (s.brick b) → slipFound s t b 9 rank false)) ∧
    (∀ b, slipsOn s tag b → (s.brick b).trap.trapped = true → (t.brick b).trap.trapped = true ∧ (t.brick b).trap.code = 0x0C) ∧
    (∀ b, (s.brick b).trap.trapped = false → let nt := field (sysGet (s.brick b) 0x026).toNat 32 32
      (nt ≠ 0 ∧ (nt = tag ∨ tag = 0xFFFFFFFF) → sysGet (t.brick b) 0x027 = sysGet (s.brick b) 0x027 &&& ~~~1) ∧
      (¬ (nt ≠ 0 ∧ (nt = tag ∨ tag = 0xFFFFFFFF)) → sysGet (t.brick b) 0x027 = sysGet (s.brick b) 0x027))) ∧
  (∀ (paths : List (Nat × Nat × Nat)) (parent above lat m f : Nat) (s : State), (paths.map (·.1)).Nodup →
    (∀ p ∈ paths, p.2.1 < 36 ∧ (p.2.2 + 15) / 16 + 5 < 1024) →
    ∃ t lm par, exec (.pathCalibration paths ⟨parent, above, lat⟩ ⟨m, f⟩) s = .next t ∧
      (roots s → lm = 0 ∧ par = none) ∧ (¬ roots s → lm = above + ((lat + 15) / 16 + 5) ∧ par = some parent) ∧
      t = { s with pathtbl := t.pathtbl, tb := { s.tb with ct := m + lm, lm := lm, phi := f, lastMarker := some m, lock := true, parent := par } } ∧
      (∀ p ∈ paths, field (tget 0 t.pathtbl p.1) 0 6 = p.2.1 ∧ field (tget 0 t.pathtbl p.1) 6 10 = (p.2.2 + 15) / 16 + 5) ∧
      ∀ r, r ∉ paths.map (·.1) → tget 0 t.pathtbl r = tget 0 s.pathtbl r)

namespace Sys2Proof.Rules

/-- The first condition of a list that holds gives the reason; 0 where none does (R366). -/
def reasonIs : List (Nat × Prop) → Nat → Prop
  | [], r => r = 0
  | (n, c) :: rest, r => (c ∧ r = n) ∨ (¬ c ∧ reasonIs rest r)

/-- The first issue that a start cycle gives: a frame boundary for an image that holds timelines (R81). -/
def movedStart (m : LaunchMsg) (img : Image) : Nat := if img.timelines = [] then m.start else (m.start + 4095) / 4096 * 4096

/-- The Mason's checks of a well-formed message, in their order (R366). -/
def refusals (s : State) (m : LaunchMsg) (img : Image) (held : Bool) : List (Nat × Prop) :=
  let p := s.part m.part
  [(2, p.bricks = [] ∨ ∃ b ∈ m.mask, b ∉ p.bricks),
   (3, img.count ≠ 0 ∧ m.mask.length ≠ img.count),
   (4, 64 < field m.widths 0 6 + field m.widths 6 6 + field m.widths 12 6 + field m.widths 18 6 + field m.widths 24 6 + field m.widths 30 6 ∨
     ∃ w, img.widths = some w ∧ w ≠ m.widths),
   (5, ∃ q ∈ img.timelines, p.htLen < q.2.length),
   (6, (m.asap = true ∧ m.timed = true) ∨ (m.asap = false ∧ movedStart m img < s.tb.ct + 17920)),
   (7, 16 ≤ s.queueCount m.part m.queue ∨ (s.queueCount m.part m.queue ≠ 0 ∧ (p.queue m.queue).base ≠ m.rank)),
   (8, held = false),
   (9, ¬ (field (tget 0 s.ranktbl s.rank) 12 1 = 1 ∧ field (tget 0 s.ranktbl s.rank) 0 12 = s.station)),
   (10, s.mason.pwrL1 = true)]

/-- A residency report, of the launch that a message names (R367). -/
def reportOf (port : Nat) (ws : List (BitVec 64)) (status reason cycle start : Nat) : Out :=
  let w1 := (ws.getD 1 0).toNat
  .report port [BitVec.ofNat 64 (0x81 + 2 ^ 8 + 4 * 2 ^ 32),
    BitVec.ofNat 64 (field w1 0 40 + 2 ^ 40 * status + 2 ^ 48 * reason), BitVec.ofNat 64 cycle, BitVec.ofNat 64 start]

/-- The frame column of a cycle is a control column of a port (R406); before PHASE 4 each one is (R400; log entry 120). -/
def inControl (s : State) (port c : Nat) : Prop := s.mason.phase < 4 ∨ hasCol (field (tget 0 s.mason.admitReg port) 16 16) (c / 256 % 16)

/-- The Mason reports on a port: where the report's five cycles lie in control columns of the port it leaves, elsewhere it does not and
TXDENY counts it (R363, R406; log entry 120). -/
def reported (s t : State) (port : Nat) (o : Out) : Prop :=
  ((inControl s port s.tb.ct ∧ inControl s port (s.tb.ct + 4)) → t.out = s.out ++ [o] ∧ t.mason = s.mason) ∧
  (¬ (inControl s port s.tb.ct ∧ inControl s port (s.tb.ct + 4)) → t.out = s.out ∧
    t.mason = { s.mason with txdeny := t.mason.txdeny } ∧ tget 0 t.mason.txdeny port = min (tget 0 s.mason.txdeny port + 1) 0xFFFF ∧
    ∀ p, p ≠ port → tget 0 t.mason.txdeny p = tget 0 s.mason.txdeny p)

/-- The package reports, and nothing else changes. -/
def onlyReports (i : Instr) (s : State) (port : Nat) (o : Out) : Prop :=
  ∃ t, exec i s = .next t ∧ reported s t port o ∧ t = { s with out := t.out, mason := t.mason }

/-- A pre-emption request names a running task (R374). -/
def requestFor (ws : List (BitVec 64)) (q : Nat × Task) : Prop :=
  ws.length = 2 ∧ (ws.getD 0 0).toNat = 0x0102 + 2 * 2 ^ 32 ∧ q.2.state = .running ∧
    q.2.launchId = field (ws.getD 1 0).toNat 0 32 ∧ q.2.part = field (ws.getD 1 0).toNat 32 3

/-- Two tasks share a brick. -/
def shareBrick (s : State) (a b : Task) : Prop := ∃ i ∈ a.mask, i ∈ b.mask ∧ (a.resident = true ∨ i ∈ (s.part a.part).bricks)

/-- A task stands in the table. -/
def listed (s : State) (k : Nat) : Prop := (k, s.task k) ∈ s.tasks

/-- Four tasks on a brick that stay there when a timed launch takes it: those that run or are parked, and timed launches that have taken
it (R369, R373; log entries 39, 81, 99). -/
def crowded (s : State) (k : Nat) : Prop :=
  ∃ b ∈ (s.task k).mask, 4 ≤ (s.tasks.filter fun q =>
    (q.2.resident || (q.2.state == .placed && !q.2.asap && q.2.saved.isEmpty && (s.part q.2.part).bricks.contains b)) && q.2.mask.contains b).length

/-- A queue's head fits an offer of the bricks F on this cycle: its bricks are offered, its run ends before the next slice boundary or
the offer is made at one, none of its bricks would hold more than four tasks, it ends before the take point of each start launch accepted on
them, and it is the only resident task of its partition with a timeline section if it holds one (R371, R373, R369; a task that was chosen and
has not started counts as one that holds its bricks: log entry 39). -/
def fitsOffer (s : State) (k : Nat) (F : List Nat) (edge : Prop) (h : Nat) : Prop :=
  let x := s.task h
  let len := 4096 * (s.part k).slice
  (∀ b ∈ x.mask, b ∈ F) ∧ (x.run ≤ (s.tb.ct / len + 1) * len - s.tb.ct ∨ edge) ∧
  (∀ b ∈ x.mask, (s.tasks.filter fun u => u.1 != h && (u.2.active || u.2.resident) && u.2.mask.contains b &&
    (u.2.resident || (s.part u.2.part).bricks.contains b)).length < 4) ∧
  (∀ u ∈ s.tasks, u.2.state = .startPending → shareBrick s u.2 x → s.tb.ct + x.run ≤ u.2.start - 16896 ∧ 16896 ≤ u.2.start) ∧
  (x.image.timelines ≠ [] → ∀ u ∈ s.tasks, u.1 ≠ h → u.2.part = k → (u.2.active = true ∨ u.2.resident = true) → u.2.image.timelines = [])

/-- Queue q's head h fits. -/
def headFits (s : State) (k : Nat) (F : List Nat) (edge : Prop) (q h : Nat) : Prop :=
  q < 32 ∧ ((s.part k).queue q).order.head? = some h ∧ fitsOffer s k F edge h

/-- A queue's effective rank (R370). -/
def effRank (s : State) (k q : Nat) : Nat := min 7 (((s.part k).queue q).base + ((s.part k).queue q).miss / 8)

/-- RRP of an effective rank: 31 at reset (R371). -/
def pointer (s : State) (k e : Nat) : Nat := 31 - tget 0 (s.part k).rrp e

/-- The arbiter's choice: of the queues whose heads fit those of the highest effective rank, and of these the first one from the queue after
that rank's pointer on, mod 32 (R371). -/
def picks (s : State) (k : Nat) (F : List Nat) (edge : Prop) (q h : Nat) : Prop :=
  headFits s k F edge q h ∧ ∀ q' h', headFits s k F edge q' h' →
    effRank s k q' ≤ effRank s k q ∧
      (effRank s k q' = effRank s k q → (q + 31 - pointer s k (effRank s k q)) % 32 ≤ (q' + 31 - pointer s k (effRank s k q)) % 32)

/-- No task that holds bricks names this one: one that was chosen and has not run does not count where the brick has left its partition
(R28, R371; log entry 98). -/
def unheld (s : State) (b : Nat) : Prop :=
  ∀ u ∈ s.tasks, u.2.active = true → b ∈ u.2.mask → u.2.resident = false ∧ b ∉ (s.part u.2.part).bricks

/-- The bricks of a task lie within its partition (R27). -/
def atHome (s : State) (k : Nat) : Prop := ∀ b ∈ (s.task k).mask, b ∈ (s.part (s.task k).part).bricks

end Sys2Proof.Rules

/-- R363 to R369, R400, R406: a launch is refused with one report and the first reason that holds, or accepted with one report: the
task gets its place, an ASAP launch joins the tail of its queue and its idle bricks are offered, an empty queue takes its base rank. R374: a
request that names a running task pre-empts it and is reported, any other, a malformed one too (log entry 80), is reported as refused and changes
nothing. (That a message comes and a report leaves in its port's control columns only, and in any column before PHASE 4, is log entry 120's
reading.) -/
def Obligations.LaunchesAndRequests : Prop :=
  (∀ (port : Nat) (ws : List (BitVec 64)) (s : State), ¬ inControl s port s.tb.ct →
    exec (.launch port ws) s = .next s ∧ exec (.preemptionRequest port ws) s = .next s) ∧
  (∀ (port : Nat) (ws : List (BitVec 64)) (s : State), s.mason.phase < 4 → exec (.launch port ws) s =
    .next { s with out := s.out ++ [reportOf port ws 3 9 s.tb.ct 0] }) ∧
  (∀ (port : Nat) (ws : List (BitVec 64)) (s : State), inControl s port s.tb.ct → 4 ≤ s.mason.phase → parseLaunch ws = none →
    onlyReports (.launch port ws) s port (reportOf port ws 3 1 s.tb.ct 0)) ∧
  (∀ (port : Nat) (ws : List (BitVec 64)) (m : LaunchMsg) (s : State), inControl s port s.tb.ct → 4 ≤ s.mason.phase →
    parseLaunch ws = some m →
    (∀ words, m.image = some words → parseImage words = none → onlyReports (.launch port ws) s port (reportOf port ws 3 1 s.tb.ct 0)) ∧
    (∀ r, m.image = none → (∀ p ∈ (s.part m.part).images, p.1 ≠ m.digest) → reasonIs (refusals s m Task.none.image false) r →
      onlyReports (.launch port ws) s port (reportOf port ws 3 r s.tb.ct 0)) ∧
    (∀ words img r, s.imageOf m = some words → parseImage words = some img → reasonIs (refusals s m img true) r → r ≠ 0 →
      onlyReports (.launch port ws) s port (reportOf port ws 3 r s.tb.ct 0)) ∧
    (∀ words img, s.imageOf m = some words → parseImage words = some img → reasonIs (refusals s m img true) 0 →
      ∃ t k, exec (.launch port ws) s = .next t ∧ k = s.nextTask ∧ t.nextTask = k + 1 ∧ t.bricks = s.bricks ∧ t.channels = s.channels ∧
        reported s t port (if m.asap then reportOf port ws 2 0 s.tb.ct 0 else reportOf port ws 1 0 s.tb.ct (movedStart m img)) ∧
        (t.task k).accepted = s.tb.ct ∧ (t.task k).port = port ∧
        (t.task k).state = (if m.asap then .queued else .startPending) ∧ (t.task k).mask = m.mask ∧ (t.task k).image = img ∧
        (t.task k).run = m.run ∧ (t.task k).timed = m.timed ∧ (t.task k).steptag = m.steptag ∧ (t.task k).args = m.args ∧
        (m.asap = false → (t.task k).start = movedStart m img) ∧ (∀ j, j ≠ k → t.task j = s.task j) ∧
        (let q := (s.part m.part).queue m.queue
         (t.part m.part).queue m.queue = { q with
           base := if s.queueCount m.part m.queue = 0 then m.rank else q.base
           order := if m.asap then q.order ++ [k] else q.order }) ∧
        (digestOf (words.flatMap fun w => wordBytes 8 w.toNat), words) ∈ (t.part m.part).images ∧
        t.offers = if m.asap then s.offers ++ [(m.part, none, [])] else s.offers)) ∧
  (∀ (port : Nat) (ws : List (BitVec 64)) (s : State), inControl s port s.tb.ct → (∀ q ∈ s.tasks, ¬ requestFor ws q) →
    onlyReports (.preemptionRequest port ws) s port (reportOf port ws 5 0 s.tb.ct 0)) ∧
  (∀ (port k : Nat) (ws : List (BitVec 64)) (s : State), inControl s port s.tb.ct → listed s k → requestFor ws (k, s.task k) →
    (∀ q ∈ s.tasks, requestFor ws q → q.1 = k) → (∀ b ∈ (s.task k).mask, (s.brick b).trap.trapped = false) →
    (∃ b ∈ (s.task k).mask, (s.brick b).seq.ended = false) → (s.task k).preempt = none →
    ∃ t, exec (.preemptionRequest port ws) s = .next t ∧ reported s t port (reportOf port ws 4 0 s.tb.ct 0) ∧
      t.task k = { s.task k with preempt := some s.tb.ct, byRequest := true } ∧ (∀ j, j ≠ k → t.task j = s.task j) ∧
      t.bricks = s.bricks ∧ t.parts = s.parts ∧ t.agenda = s.agenda)

/-- R370, R371, R373 to R375, R81, R189, R368, R372: a slice boundary counts misses and offers the idle bricks; a take point drops its launch or
places it and pre-empts the tasks on its bricks (one whose bricks have left its partition is dropped: log entry 98); a task starts on all its bricks at once, a fresh one at plan cycle 0, a parked one
where it stood, with the lines of its image that HBM holds otherwise (R392; log entry 73); a forced pre-emption stops a brick with fault 0x10, a bound task's with course slip; a task that ends leaves its
bricks idle and offered, with their memories and registers as they stand (R292; log entry 42). (That a first run is measured from the first
issue is log entry 91's reading; that a taken start launch keeps its start whatever a later take point does, log entry 99's; which tasks
count against the four of a brick at a take point, log entries 39 and 81's.) -/
def Sys2Proof.Rules.StartsAndStops : Prop :=
  (∀ (k : Nat) (s : State), ∃ t, exec (.sliceBoundary k) s = .next t ∧ t.offers = s.offers ++ [(k, none, [])] ∧
    (t.part k).slice = ((s.part k).sliceNew.getD (s.part k).slice) ∧ (t.part k).sliceNew = none ∧
    (∀ q, let x := (s.part k).queue q
      (t.part k).queue q = { x with miss := if x.order = [] then x.miss else if x.chosen then 0 else min 63 (x.miss + 1), chosen := false }) ∧
    (∀ j, j ≠ k → t.part j = s.part j) ∧ t = { s with parts := t.parts, offers := t.offers }) ∧
  (∀ (k : Nat) (s : State), (s.task k).state = .startPending →
    let rivals := fun q : Nat × Task => q ∈ s.tasks ∧ q.1 ≠ k ∧ q.2.active = true ∧ shareBrick s q.2 (s.task k)
    let dropped := fun r : Nat => ∃ t, exec (.takePoint k) s = .next t ∧ (t.task k).state = .ended ∧ t.bricks = s.bricks ∧
      reported s t (s.task k).port
        (.report (s.task k).port (reportWords (s.task k).launchId (s.task k).part (s.task k).queue 6 r (s.task k).accepted 0)) ∧
      ∀ j, j ≠ k → t.task j = s.task j
    let timedRuns := ∃ q, rivals q ∧ q.2.state = .running ∧ q.2.timed = true
    (timedRuns → dropped 1) ∧ (¬ timedRuns → crowded s k → dropped 2) ∧ (¬ timedRuns → ¬ crowded s k → ¬ atHome s k → dropped 0) ∧
    (¬ timedRuns → ¬ crowded s k → atHome s k → ∃ t, exec (.takePoint k) s = .next t ∧
      (t.task k).state = .placed ∧ (t.task k).firstIssue = (s.task k).start ∧
      (∀ u, rivals (u, s.task u) → (s.task u).state = .running → (t.task u).preempt = some s.tb.ct ∧ (t.task u).byRequest = false) ∧
      (∀ u, rivals (u, s.task u) → (s.task u).state = .placed → (s.task u).asap = false → (s.task u).saved = [] → t.task u = s.task u) ∧
      ∀ b, (s.brick b).trap.trapped = false → t.brick b = s.brick b)) ∧
  (∀ (k : Nat) (s : State), let x := s.task k
    x.state = .placed → atHome s k → x.saved = [] → x.mask.Nodup → (∀ b ∈ x.mask, (s.brick b).task = none) →
    ∃ t, exec (.taskStart k) s = .next t ∧ (t.task k).state = .running ∧ (t.task k).lastYield = s.tb.ct ∧ (t.task k).lastRun = x.run ∧
      (∀ j b, x.mask[j]? = some b → let y := t.brick b
        y.task = some k ∧ y.running = true ∧ y.stream = x.image.stream ∧ y.workid = x.wbase + BitVec.ofNat 64 j ∧
        y.seq = { Brick.reset.seq with origin := s.tb.ct, c0 := s.tb.ct } ∧ y.sc = Brick.reset.sc ∧ y.mx = Brick.reset.mx ∧
        y.vec.v = Brick.reset.vec.v ∧ y.trap.trapped = false ∧ y.flights = [] ∧ y.held = []) ∧
      (∀ b, b ∉ x.mask → t.brick b = s.brick b) ∧
      (∀ q ∈ x.image.timelines, ∃ l ∈ (t.channel q.1).timelines, l.task = k ∧ l.cmds = q.2 ∧ l.pos = 0 ∧ l.running = true)) ∧
  (∀ (k : Nat) (s : State), let x := s.task k
    x.state = .placed → atHome s k → x.saved ≠ [] → x.mask.Nodup → (x.saved.map (·.1)).Nodup → (∀ q ∈ x.saved, q.1 ∈ x.mask) →
    (∀ b ∈ x.mask, (s.brick b).task = none) → (∀ q ∈ x.saved, q.2.trap.trapped = false ∧ q.2.trap.pend = []) →
    ∃ t, exec (.taskStart k) s = .next t ∧ (t.task k).state = .running ∧ (t.task k).saved = [] ∧ t.channels = s.channels ∧
      (t.task k).lastYield = x.lastYield ∧ (t.task k).lastRun = x.lastRun ∧
      (∀ q ∈ x.saved, let y := t.brick q.1
        let z := x.loaded s q.1 q.2
        y.running = true ∧ y.sc = q.2.sc ∧ y.vec = z.vec ∧ y.ring = z.ring ∧ y.mx = z.mx ∧ y.flights = z.flights ∧ y.pollen = z.pollen ∧
        ((∀ i, x.slotOf q.1 = some i → s.imageChanges q.1 i q.2 = []) → z = q.2) ∧
        y.hod = q.2.hod ∧ y.held = q.2.held ∧ y.formats = q.2.formats ∧ y.frz.yielded = q.2.frz.yielded ∧
        y.seq = { q.2.seq with c0 := s.tb.ct - q.2.seq.pt - q.2.seq.lag, origin := s.tb.ct, opening := true, arrived := none }) ∧
      ∀ b, b ∉ x.mask → t.brick b = s.brick b) ∧
  (∀ (b k : Nat) (s : State), (s.brick b).task = some k → ((s.task k).image.timelines = [] ∨ (s.task k).tlStopped = true ∨ (s.task k).bound = false) →
    exec (.forcedPreemption b) s = .next { s with
      issue := { s.issue with
        brick := b
        start := some (s.issue.start.getD (s.brick b))
        found := s.issue.found ++ [⟨if (s.task k).bound then 0x0C else 0x10, 63, []⟩] }
      agenda := .commit :: s.agenda }) ∧
  (∀ (b k : Nat) (s : State), (s.brick b).task = some k → (s.task k).image.timelines ≠ [] → (s.task k).tlStopped = false →
    (s.task k).bound = true →
    ∃ t, exec (.forcedPreemption b) s = .next t ∧ t.issue.found = s.issue.found ++ [⟨0x0C, 63, []⟩] ∧ t.agenda.head? = some .commit ∧
      (t.task k).tlStopped = true ∧ t.bricks = s.bricks ∧
      ∀ ch ∈ (s.task k).image.timelines.map (·.1), ∀ l ∈ (t.channel ch).timelines, l.task = k → l.running = false) ∧
  (∀ (k : Nat) (s : State), let own := (s.task k).mask.filter fun b => decide ((s.brick b).task = some k)
    ∃ t, exec (.taskEnd k) s = .next t ∧ (t.task k).state = .ended ∧ t.offers = s.offers ++ [((s.task k).part, none, own)] ∧
      (∀ b ∈ own, (t.brick b).task = none ∧ (t.brick b).running = false ∧ (t.brick b).ring.mem = (s.brick b).ring.mem ∧
        (t.brick b).hod.core = (s.brick b).hod.core ∧ (t.brick b).sc = (s.brick b).sc ∧ (t.brick b).vec = (s.brick b).vec ∧
        (t.brick b).held = [] ∧ (t.brick b).flights = []) ∧ (∀ b, b ∉ own → t.brick b = s.brick b) ∧
      (∀ j, j ≠ k → t.task j = s.task j) ∧ t.hbm = s.hbm ∧ t.yard = s.yard ∧ t.channels = s.channels)

/-- R371, R372, R370: an offer is made on its cycle; a yielding task first joins the tail of its queue and its bricks are offered with the
idle ones. The arbiter chooses, among the heads that fit, by effective rank and by the rank's round-robin pointer, takes that task out of its
queue and its bricks out of the offer, and goes on until no head fits. A yielding task that is chosen keeps its bricks and goes on, one that is
not parks; every other chosen task makes its first issue 16,640 cycles on, at a frame boundary where its image holds timelines. (A chosen task
that has not started counts as one that holds its bricks: log entry 39.) -/
def Sys2Proof.Rules.ArbiterChooses : Prop :=
  (∀ (o : Nat × Option Nat × List Nat) (rest : List Todo) (s : State), s.mason.pwrL2 = false → s.agenda = .phase 12 :: rest → s.offers = [o] →
    step s = .next (({ s with agenda := rest, offers := [] } : State).makeOffer o)) ∧
  (∀ (k : Nat) (bs : List Nat) (s : State), ∃ F n, (∀ b, b ∈ F ↔ b ∈ (s.part k).bricks ∧ unheld s b) ∧
    s.makeOffer (k, none, bs) = (arbitrate k none (decide ((s.part k).lastEdge = some s.tb.ct)) n F s []).2 ∧
    ∀ q h, ¬ headFits (s.makeOffer (k, none, bs)) k (F.filter fun b => !((arbitrate k none (decide ((s.part k).lastEdge = some s.tb.ct)) n F s []).1.any
      fun j => (s.task j).mask.contains b)) ((s.part k).lastEdge = some s.tb.ct) q h) ∧
  (∀ (k y : Nat) (bs : List Nat) (s : State), ∃ (u : State) (F : List Nat) (n : Nat),
    u = { s with parts := u.parts } ∧ (∀ j, j ≠ k → u.part j = s.part j) ∧ u.part k = { s.part k with queues := (u.part k).queues } ∧
    (∀ q, (u.part k).queue q = if q = (s.task y).queue then { (s.part k).queue q with order := ((s.part k).queue q).order ++ [y] } else (s.part k).queue q) ∧
    (∀ b, b ∈ F ↔ (b ∈ (s.part k).bricks ∧ unheld s b) ∨ b ∈ bs) ∧
    (let r := arbitrate k (some y) false n F u []
     (∀ q h, ¬ headFits r.2 k (F.filter fun b => !(r.1.any fun j => (s.task j).mask.contains b)) False q h) ∧
     s.makeOffer (k, some y, bs) = if y ∈ r.1 then r.2 else r.2.saveTask y)) ∧
  (∀ (k n : Nat) (y : Option Nat) (edge : Bool) (F done : List Nat) (s : State),
    ((∀ q h, ¬ headFits s k F (edge = true) q h) → arbitrate k y edge n F s done = (done, s)) ∧
    ∀ q h, picks s k F (edge = true) q h → ∃ t, arbitrate k y edge (n + 1) F s done =
        arbitrate k y edge n (F.filter fun b => !(s.task h).mask.contains b) t (done ++ [h]) ∧
      (t.part k).queue q = { (s.part k).queue q with order := ((s.part k).queue q).order.drop 1, chosen := true } ∧
      (∀ p, p ≠ q → (t.part k).queue p = (s.part k).queue p) ∧ (∀ j, j ≠ k → t.part j = s.part j) ∧
      pointer t k (effRank s k q) = q ∧ (∀ e, e ≠ effRank s k q → pointer t k e = pointer s k e) ∧
      (∀ j, j ≠ h → t.task j = s.task j) ∧
      (y = some h → t.task h = { s.task h with lastYield := s.tb.ct } ∧
        ∀ b, t.brick b = if b ∈ (s.task h).mask then { s.brick b with frz := { (s.brick b).frz with yielded := none } } else s.brick b) ∧
      (y ≠ some h → t.bricks = s.bricks ∧ t.task h = { s.task h with
        state := .placed
        firstIssue := if (s.task h).image.timelines = [] then s.tb.ct + 16640 else (s.tb.ct + 16640 + 4095) / 4096 * 4096 }))

/-- Tasks start, stop and end, and the arbiter chooses which of them go on. (The model's readings: log entries 39, 42, 73, 81, 91, 98, 99.) -/
def Obligations.TasksStartAndStop : Prop := Rules.StartsAndStops ∧ Rules.ArbiterChooses
namespace Sys2Proof.Rules

/-- The order in which coinciding faults are delivered; codes that R380 leaves out come last (log entry 12). -/
def faultOrder : List Nat := [0x01, 0x07, 0x0E, 0x03, 0x04, 0x02, 0x08, 0x0A, 0x09, 0x0B, 0x0D, 0x11]

/-- A fault is delivered before another: earlier in the order, or of the same rank at a lower slot (R380); a pre-emption held pending
is delivered first (R395). -/
def precedes (f g : Late) : Prop :=
  let first := fun h : Late => h.code = 0x10 ∨ h.preempts = true
  (first f ∧ ¬ first g) ∨ ((first f ↔ first g) ∧
    (faultOrder.idxOf f.code < faultOrder.idxOf g.code ∨ (faultOrder.idxOf f.code = faultOrder.idxOf g.code ∧ f.slot < g.slot)))

/-- A pre-emption of the brick's task is due, the brick's boundary for it is its trap point, and no fault found or pending is one already
(R374, R395). -/
def preemptedNow (s : State) (b k : Nat) : Prop :=
  (s.brick b).task = some k ∧ (∃ p, (s.task k).preempt = some p ∧ p ≤ s.tb.ct) ∧ (s.brick b).seq.issueNo = 0 ∧
    (s.brick b).seq.ended = false ∧
    ∀ g ∈ (s.brick b).trap.found ++ (s.brick b).trap.pend, g.code ≠ 0x10 ∧ g.code ≠ 0x0C

/-- FLTREC as a delivered fault leaves it (R389). -/
def recorded (f : Late) (lo hi : Word) (nsnap pend : Nat) : Prop :=
  field lo.toNat 0 8 = f.code % 2 ^ 8 ∧ field lo.toNat 8 6 = f.slot % 2 ^ 6 ∧ field lo.toNat 14 1 = f.late.toNat ∧
  field lo.toNat 15 1 = f.replay.toNat ∧ field lo.toNat 16 34 = f.pc % 2 ^ 34 ∧ field lo.toNat 50 8 = f.issue % 2 ^ 8 ∧
  field lo.toNat 58 6 = 0 ∧ field hi.toNat 0 32 = f.cycle % 2 ^ 32 ∧ field hi.toNat 32 16 = f.tcode % 2 ^ 16 ∧
  field hi.toNat 48 9 = nsnap % 2 ^ 9 ∧ field hi.toNat 57 4 = pend % 2 ^ 4 ∧ field hi.toNat 61 3 = 0

/-- A descriptor names a result in a scalar register, a cluster register or a predicate (R384). -/
def described (g : Flight) (clk : Nat) (w : Word) : Prop :=
  field w.toNat 0 1 = 1 ∧ field w.toNat 4 6 = g.slot ∧ field w.toNat 10 4 = (g.due - clk) % 16 ∧ field w.toNat 35 1 = g.latch.toNat ∧
  match g.dest with
  | .sreg r => field w.toNat 1 3 = 2 ∧ field w.toNat 16 16 = r % 2 ^ 16
  | .qpred i => field w.toNat 1 3 = 2 ∧ field w.toNat 16 16 = 2 ^ 15 + i % 2 ^ 15
  | .vreg c r => field w.toNat 1 3 = 1 ∧ field w.toNat 16 16 = r % 2 ^ 16 ∧ field w.toNat 32 3 = c % 8
  | .ringLine blocks line => field w.toNat 1 3 = 4 ∧ field w.toNat 16 16 = line % 2 ^ 16 ∧ field w.toNat 44 8 = blocks % 2 ^ 8
  | _ => True

def hasDescriptor (d : Dest) : Prop :=
  (∃ r, d = .sreg r) ∨ (∃ i, d = .qpred i ∧ i < 2 ^ 15) ∨ (∃ c r, d = .vreg c r) ∨ ∃ b l, d = .ringLine b l

/-- The engines and registers of a brick are as they were; only its trap, its freeze, its system registers and how long
an HJOIN has waited differ. -/
def keepsWork (x y : Brick) : Prop :=
  y = { x with trap := y.trap, frz := y.frz, sys := y.sys, hod := { x.hod with joinWait := y.hod.joinWait } }

/-- The save slot of a brick of a task. -/
def slotIn (t : Task) (b : Nat) : Nat := ((t.slots.find? fun p => p.1 == b).map (·.2)).getD 0

/-- An action is refused: REFUSED is set and nothing else changes (R391). -/
def actionRefused (i : Instr) (b : Nat) (s : State) : Prop :=
  exec i s = .next (s.onBrick b fun x => { x with trap := { x.trap with refused := true } })

/-- The bricks of a task that a brick's resume takes with it (R382, R391). -/
def resumesWith (s : State) (b c : Nat) : Prop :=
  ∃ k, (s.brick b).task = some k ∧ (if (s.task k).bound then c = b
    else c ∈ (s.task k).mask ∧ (s.brick c).task = some k ∧ (s.brick c).trap.trapped = true ∧ (s.brick c).trap.code ≠ 0x10)

end Sys2Proof.Rules

/-- R379 to R384, R389, R395: a trap delivers the first of the faults found, writes FLTREC and one descriptor for each operation still due,
tells the Mason, keeps at most eight of the others, and a pre-emption whose boundary the trap point is, pending, on which a bound task's
timelines stop (R375), records the fault in its unit's status register unless one stands
there, and freezes the bricks of a task that is not bound; a brick already trapped keeps every fault pending. The brick's
registers, memories and operations in flight stay. R381, R383, R391: a resume clears the trap, a settle bundle waits again, and pending faults, one found since among them, go first. (The place of the
codes that R380 leaves out is log entry 12's.) -/
def Sys2Proof.Rules.TrapsSaveAndStop : Prop :=
  (∀ (b : Nat) (s : State), let x := s.brick b
    x.trap.found ≠ [] → x.trap.trapped = false →
    ∃ f ∈ x.trap.found, ∃ t, (∀ g ∈ x.trap.found, ¬ precedes g f) ∧ exec (.trapPoint b) s = .next t ∧
      Out.faultEvent b f.code ∈ t.out ∧
      ((∀ k, preemptedNow s b k → (s.task k).bound = false) →
        t.out = s.out ++ [.faultEvent b f.code] ∧ t = { s with bricks := t.bricks, out := t.out }) ∧
      (∀ k, preemptedNow s b k → (s.task k).bound = true → t.hbm = s.hbm ∧ t.yard = s.yard ∧ t.parts = s.parts ∧
        ((s.task k).image.timelines ≠ [] → (t.task k).tlStopped = true) ∧
        ((s.task k).steptag ≠ 0 → Out.notice (s.task k).steptag s.rank s.tb.ct ∈ t.out)) ∧
      (let y := t.brick b
       keepsWork x y ∧ y.trap.trapped = true ∧ y.trap.code = f.code ∧ y.trap.found = [] ∧ y.trap.resumeAt = none ∧
        recorded f y.trap.recLo y.trap.recHi y.trap.snap.length y.trap.pend.length ∧ y.frz.driftUntil = 0 ∧ y.frz.ceUntil = 0 ∧
        y.hod.joinWait = (if f.code = 0x11 ∨ f.code = 0x09 then 0 else x.hod.joinWait) ∧
        ((∀ k, ¬ preemptedNow s b k) → y.trap.pend.length = min 8 (x.trap.pend.length + x.trap.found.length - 1) ∧
          ∀ g ∈ y.trap.pend, g ∈ x.trap.pend ∨ g ∈ x.trap.found) ∧
        (∀ k, preemptedNow s b k → y.trap.pend.length = min 8 (x.trap.pend.length + x.trap.found.length) ∧
          (x.trap.pend.length + x.trap.found.length ≤ 8 → ∃ g ∈ y.trap.pend, g.preempts = true ∧ g.code = if (s.task k).bound then 0x0C else 0x10) ∧
          ∀ g ∈ y.trap.pend, g ∈ x.trap.pend ∨ g ∈ x.trap.found ∨ g.code = if (s.task k).bound then 0x0C else 0x10) ∧
        (∀ n v, f.regs = [(n, v)] → n ≠ 0x032 → sysGet y n = if (sysGet x n).toNat % 2 = 1 then sysGet x n else v) ∧
        (x.flights.length ≤ 256 → ∀ g ∈ x.flights, g.slot < 64 → hasDescriptor g.dest → ∃ w ∈ y.trap.snap, described g x.seq.clk w)) ∧
      (∀ c, c ≠ b → keepsWork (s.brick c) (t.brick c) ∧ (t.brick c).hod = (s.brick c).hod ∧ (t.brick c).trap = (s.brick c).trap ∧ (t.brick c).sys = (s.brick c).sys ∧
        ((t.brick c).frz.withTask = true ↔ (s.brick c).frz.withTask = true ∨
          ∃ k, x.task = some k ∧ (s.task k).bound = false ∧ f.code ≠ 0x10 ∧ c ∈ (s.task k).mask ∧ (s.brick c).task = some k))) ∧
  (∀ (b : Nat) (s : State), let x := s.brick b
    x.trap.found ≠ [] → x.trap.trapped = true →
    ∃ t, exec (.trapPoint b) s = .next t ∧ t = { s with bricks := t.bricks } ∧ (∀ c, c ≠ b → t.brick c = s.brick c) ∧
      (t.brick b).trap = { x.trap with found := [], pend := (x.trap.pend ++ x.trap.found).take 8 } ∧ keepsWork x (t.brick b) ∧
      (sysGet (t.brick b) 0x032).toNat =
        if x.trap.pend.length + x.trap.found.length ≤ 8 then (sysGet x 0x032).toNat
        else min ((sysGet x 0x032).toNat + (x.trap.pend.length + x.trap.found.length - 8)) 0xFFFFFFFF) ∧
  (∀ (b : Nat) (s : State), let x := s.brick b
    (x.trap.pend = [] → x.trap.found = [] → (s.resumeTrap b).brick b = { x with
      trap := { x.trap with trapped := false, code := 0, snap := [], asked := false, resumeAt := none, rescyc := s.tb.ct % 2 ^ 32, found := [] }
      frz := { x.frz with withTask := false }
      seq := { x.seq with arrived := none } }) ∧
    (let due := (x.trap.pend ++ x.trap.found).take 8
     due ≠ [] → let y := (s.resumeTrap b).brick b
      y.trap.trapped = true ∧ ∃ f ∈ due, (∀ g ∈ due, ¬ precedes g f) ∧ y.trap.code = f.code ∧ ∀ g ∈ due, g = f ∨ g ∈ y.trap.pend))

/-- The records of a cycle join a brick's queue in the order of their slots: the first one after a drop holds LOSS, a full queue takes no
more, and PQLOST counts those that it drops (R236, R237). -/
def Sys2Proof.Rules.recordsJoined (x y : Brick) : Prop :=
  let room := 256 - x.pollen.length
  y = { x with pollen := y.pollen, pollenNew := [], pollenLoss := y.pollenLoss, sys := y.sys } ∧
  ∃ news : List (Nat × BitVec 128), news.Perm x.pollenNew ∧ news.Pairwise (fun a b => a.1 ≤ b.1) ∧
    y.pollen.length = x.pollen.length + min room news.length ∧
    (∀ i, i < x.pollen.length → y.pollen[i]? = x.pollen[i]?) ∧
    (∀ i r, i < room → news[i]? = some r → y.pollen[x.pollen.length + i]? =
      some (if i = 0 ∧ x.pollenLoss = true then r.2 ||| BitVec.ofNat 128 (2 ^ 14) else r.2)) ∧
    y.pollenLoss = (if news = [] then x.pollenLoss else decide (room < news.length)) ∧
    (∀ n, n ≠ 0x022 → tget 0 y.sys n = tget 0 x.sys n) ∧
    (tget 0 y.sys 0x022).toNat = (if news.length ≤ room then (tget 0 x.sys 0x022).toNat
      else min ((tget 0 x.sys 0x022).toNat + (news.length - room)) 0xFFFFFFFF)

/-- R390 to R392, R375: the Mason's actions on a trapped brick: a resume, four cycles on, of the brick or, once each trapped brick of a
task that is not bound has been asked, of all of them; the end of its task, whose timelines stop; the parking of a task that is not
bound, at the head of its queue, each brick's image in a save slot that no other resident task has, slots that are not claimed as zero;
each is refused where its row says so. A parked brick's records of the cycle are in its image's queue (R237). (The layout
of some of an image's lines: log entry 73. That an accepted resume keeps REFUSED is the model's reading: log entry 48.) -/
def Sys2Proof.Rules.ActionsOnTraps : Prop :=
  (∀ (b k : Nat) (s : State), let x := s.brick b
    x.task = some k →
    (x.trap.trapped = false ∨ x.trap.code ∈ [0x0C, 0x05, 0x06, 0x10] ∨ ((s.task k).image.timelines ≠ [] ∧ (s.task k).tlStopped = true) →
      actionRefused (.brkctlResume b) b s) ∧
    (x.trap.trapped = true → x.trap.code ∉ [0x0C, 0x05, 0x06, 0x10] → ((s.task k).image.timelines = [] ∨ (s.task k).tlStopped = false) →
      (b ∈ (s.task k).mask) →
      ((∀ c, resumesWith s b c → c ≠ b → (s.brick c).trap.asked = true) → ∃ t, exec (.brkctlResume b) s = .next t ∧ t = { s with bricks := t.bricks } ∧
        (∀ c, resumesWith s b c → t.brick c = { s.brick c with
          trap := { (s.brick c).trap with asked := (t.brick c).trap.asked, resumeAt := some (s.tb.ct + 4) } }) ∧
        ∀ c, ¬ resumesWith s b c → t.brick c = s.brick c) ∧
      ((∃ c, resumesWith s b c ∧ c ≠ b ∧ (s.brick c).trap.asked = false) →
        exec (.brkctlResume b) s = .next (s.onBrick b fun x => { x with trap := { x.trap with asked := true } })))) ∧
  (∀ (b : Nat) (s : State), let x := s.brick b
    (x.trap.trapped = false → actionRefused (.brkctlEnd b) b s ∧ actionRefused (.brkctlPark b) b s) ∧
    (∀ k, x.trap.trapped = true → x.task = some k →
      let own := (s.task k).mask.filter fun c => decide ((s.brick c).task = some k)
      (∃ t, exec (.brkctlEnd b) s = .next t ∧ (t.task k).state = .ended ∧ t.offers = s.offers ++ [((s.task k).part, none, own)] ∧
        (∀ c ∈ own, (t.brick c).task = none ∧ (t.brick c).running = false ∧ (t.brick c).flights = [] ∧ (t.brick c).held = []) ∧
        (∀ c, c ∉ own → t.brick c = s.brick c) ∧ (∀ j, j ≠ k → t.task j = s.task j) ∧ t.hbm = s.hbm ∧
        ∀ ch ∈ (s.task k).image.timelines.map (·.1), (s.task k).tlStopped = false →
          ∀ l ∈ (t.channel ch).timelines, l.task = k → l.running = false) ∧
      ((s.task k).bound = true → actionRefused (.brkctlPark b) b s) ∧
      ((s.task k).bound = false → ∃ t, exec (.brkctlPark b) s = .next t ∧ (t.task k).state = .parked ∧ (t.task k).parkOnly = true ∧
        (t.task k).saved.map (·.1) = own ∧
        (∀ q ∈ (t.task k).saved, ∃ z, recordsJoined (s.brick q.1) z ∧ q.2 = { z with
          running := false
          mx := { (s.brick q.1).mx with
            om := (s.brick q.1).mx.om.filter fun c => (s.brick q.1).mx.claim.contains (c.1 / 8192)
            omPoison := (s.brick q.1).mx.omPoison.filter fun i => (s.brick q.1).mx.claim.contains i
            omUe := (s.brick q.1).mx.omUe.filter fun w => (s.brick q.1).mx.claim.contains (w / 1024) }
          frz := { (s.brick q.1).frz with yielded := q.2.frz.yielded }
          trap := { (s.brick q.1).trap with pend := (s.brick q.1).trap.pend.filter fun f => f.code != 0x10 } } ∧
          ((∃ c ∈ own, (s.brick c).frz.yielded = none) → q.2.frz.yielded = (s.brick q.1).frz.yielded) ∧
          ((∀ c ∈ own, (s.brick c).frz.yielded ≠ none) → q.2.frz.yielded = none)) ∧
        ((s.task k).slots ≠ [] → (t.task k).slots = (s.task k).slots) ∧
        ((s.task k).slots = [] → ∀ c ∈ own, ∃ i, (c, i) ∈ (t.task k).slots ∧ ((∃ i', i' < 4 ∧ ∀ u ∈ s.tasks, u.1 ≠ k → u.2.resident = true → (c, i') ∉ u.2.slots) →
          i < 4 ∧ ∀ u ∈ s.tasks, u.1 ≠ k → u.2.resident = true → (c, i) ∉ u.2.slots)) ∧
        ((t.part (s.task k).part).queue (s.task k).queue).order = k :: ((s.part (s.task k).part).queue (s.task k).queue).order ∧
        (∀ c ∈ own, (t.brick c).task = none ∧ (t.brick c).running = false) ∧ (∀ c, c ∉ own → t.brick c = s.brick c) ∧
        (∀ j, j ≠ k → t.task j = s.task j) ∧
        (∀ j, t.channel j = { s.channel j with torn := (t.channel j).torn } ∧ ∀ m ∈ (t.channel j).torn, m ∈ (s.channel j).torn) ∧
        ∃ u : State, u.hbm = s.hbm ∧ u.hbmUe = s.hbmUe ∧ u.channels = s.channels ∧ u.bond = s.bond ∧ u.savebase = s.savebase ∧
          t.hbm = ((t.task k).saved.foldl (fun v q => v.storeImage q.1 (slotIn (t.task k) q.1) q.2) u).hbm)))

/-- What line j of a brick's image holds, as far as R392's table fixes it alone: ring memory with its poison,
the vector registers, the operand memory, and the reserved lines. -/
def Sys2Proof.Rules.imageHolds (x : Brick) (j : Nat) (q : Line × Bool) : Prop :=
  (j < 32768 → q.2 = x.ring.poison.contains j ∧ (j ∉ x.ring.poison → q.1 = readLine x.ring.mem (64 * j))) ∧
  (32768 ≤ j → q.2 = false) ∧
  ((33136 ≤ j ∧ j < 33280) ∨ 54224 ≤ j → q.1 = 0) ∧
  (33280 ≤ j → j < 41472 → q.1 = tget 0 x.vec.v (j - 33280)) ∧
  (46352 ≤ j → j < 48400 → q.1 = readLine x.mx.om (64 * (j - 46352)))

/-- R76, R102, R392: the switch writes a stripe whole: on a protected stripe each line that it is to write reads so, every other one as
before, and no byte of HBM changes outside the stripe's 24 blocks; an image's lines lie in order from its slot's address, and where every
stripe of the slot is protected each of them reads back there. (What the lines hold whose layout is open: log entry 73.) -/
def Sys2Proof.Rules.ImagesInHbm : Prop :=
  (∀ (k : Nat) (f : Nat → Option Line) (s : State),
    let ch := k % 32
    let bank := k / 128 % 80
    let row := k / 10240
    let place (st : Nat) : Place := ⟨st, ch, bank, row, k / 32 % 4⟩
    s.stripe ch bank row = .bonded → (∀ st, st < 24 → s.isLost st ch bank = false) →
    (∀ st, st < 24 → physRow (s.channel (32 * st + ch)) bank row < 16384) →
    let t := s.patchStripe k fun l => (f l).map fun v => (v, false)
    (∀ j, j < 184 → t.hbmLine (11776 * k + 64 * j) =
      match f (184 * k + j) with
      | some v => (v, false)
      | none => s.hbmLine (11776 * k + 64 * j)) ∧
    ∀ a, (∀ st, st < 24 → a < s.blockAddr (place st) ∨ s.blockAddr (place st) + 512 ≤ a) → readByte t.hbm a = readByte s.hbm a) ∧
  (∀ (b i : Nat) (x : Brick) (s : State), let t := s.storeImage b i x
    let from' := s.savebase + 54272 * 64 * (4 * b + i)
    t = { s with hbm := t.hbm, hbmUe := t.hbmUe, hbmCe := t.hbmCe, channels := t.channels } ∧
    (∀ j, t.channel j = { s.channel j with torn := (t.channel j).torn }) ∧
    ∀ a, (∀ k st, from' < 11776 * (k + 1) → 11776 * k < from' + 54272 * 64 → st < 24 →
      let p : Place := ⟨st, k % 32, k / 128 % 80, k / 10240, k / 32 % 4⟩
      a < s.blockAddr p ∨ s.blockAddr p + 512 ≤ a) → readByte t.hbm a = readByte s.hbm a) ∧
  (∀ (b i : Nat) (x : Brick) (s : State), let t := s.storeImage b i x
    let from' := s.savebase + 54272 * 64 * (4 * b + i)
    (∀ k, from' < 11776 * (k + 1) → 11776 * k < from' + 54272 * 64 →
      let ch := k % 32
      let bank := k / 128 % 80
      s.stripe ch bank (k / 10240) = .bonded ∧ (∀ st, st < 24 → s.isLost st ch bank = false) ∧
        ∀ st, st < 24 → physRow (s.channel (32 * st + ch)) bank (k / 10240) < 16384) →
    ∀ j, j < 54272 → from' + 64 * (j + 1) ≤ 1839904849920 →
      t.hbmLine (from' + 64 * j) = imageLine x j ∧ imageHolds x j (t.hbmLine (from' + 64 * j)))

/-- Traps, the Mason's actions on them, and the images of parked tasks. -/
def Obligations.TrapsAndActions : Prop := Rules.TrapsSaveAndStop ∧ Rules.ActionsOnTraps ∧ Rules.ImagesInHbm

namespace Sys2Proof.Rules

/-- No forced pre-emption stands against the brick's task (R374). -/
def unhindered (s : State) (b : Nat) : Prop := ∀ k, (s.brick b).task = some k → (s.task k).preempt = none

/-- The plan cycle of a brick's sequencer begins (R52, R379). -/
def begun (s : State) (b : Nat) : State :=
  let x := s.brick b
  { s with issue := { s.issue with
      brick := b
      start := some (s.issue.start.getD x)
      saved := some x
      pc := x.seq.pc
      issue := x.seq.issueNo } }

/-- Nothing issues on this plan cycle but a change of the sequencer's own registers. -/
def passes (s : State) (b : Nat) (f : Seq → Seq) : State :=
  { (begun s b).onBrick b fun x => { x with seq := f x.seq } with agenda := .commit :: s.agenda }

/-- A settle bundle that is well formed waits for its Course cycle (R45, R48). -/
def settling (u : Bundle) : Bool := u.settles && ctlIs u isSettle && !u.yields && u.gap == 0 && u.rep == 0

/-- The Course cycle of a settle bundle: its region's start and the offset O that the region has from the cycle it is first reached
(R45; of a settle bundle that opens its region: log entry 96). -/
def settleDue (s : State) (b : Nat) (u : Bundle) : Nat :=
  let q := (s.brick b).seq
  if q.arrived.isSome then q.origin + q.offset
  else (if q.opening then s.tb.ct else q.origin) + field ((u.word 0).getD 0) 0 24

/-- The sequencer where a settle bundle has been reached: O and S are the region's (R45, R173). -/
def reachedSettle (ct : Nat) (u : Bundle) (q : Seq) : Seq :=
  if q.arrived.isSome then q
  else { q with
    arrived := some ct, opening := false, origin := if q.opening then ct else q.origin
    offset := field ((u.word 0).getD 0) 0 24, slack := field ((u.word 0).getD 0) 24 10 }

/-- The word that a slot holds at issue k of a bundle: the bundle's own at its first issue, else the held word, stepped (R42, R43). -/
def slotWord (x : Brick) (u : Bundle) (pos : Nat) : Nat :=
  match u.word pos with
  | some w => if x.seq.issueNo = 0 then w else stepWord pos (heldWord x pos) (stepsOf x pos)
  | none => stepWord pos (heldWord x pos) (stepsOf x pos)

/-- The operations of an issue, in the order in which they are worked through, the ctl slot last. -/
def liveSlots (y : Brick) : List Todo :=
  ((((List.range 39).map (· + 1)) ++ [0]).filter fun p => decide (heldWord y p ≠ 0)).map Todo.slot

/-- A bundle issues: its words are held, the lag is absorbed by a settle bundle, a region that was open to begin begins, and each live
slot is worked through, a live guard with an uncorrectable error being fault 0x0B (log entry 97) and a slot that its issue forbids
fault 0x01; or it is illegal in the slots that decode finds (R30, R33, R42, R45, R52, R174). -/
def bundleIssues (s : State) (b : Nat) (u : Bundle) : Prop :=
  let x := s.brick b
  ∃ t, exec (.bundleIssue b) s = .next t ∧ (∀ c, c ≠ b → t.brick c = s.brick c) ∧
    (let y := t.brick b
     y = { x with seq := y.seq } ∧ y.seq.pc = x.seq.pc ∧ y.seq.loops = x.seq.loops ∧ y.seq.clk = x.seq.clk ∧
      y.seq.pt = (if u.settles then x.seq.pt + x.seq.lag else x.seq.pt) ∧ y.seq.lag = (if u.settles then 0 else x.seq.lag) ∧
      y.seq.origin = (if x.seq.opening then s.tb.ct else x.seq.origin) ∧ y.seq.opening = false ∧
      (∀ p, 0 < p → p < 40 → heldWord y p = slotWord x u p % 2 ^ 64) ∧
      (x.seq.issueNo = u.rep → heldWord y 0 = (u.word 0).getD 0 % 2 ^ 64) ∧
      t.issue.brick = b ∧ t.issue.active = true ∧ t.issue.last = decide (x.seq.issueNo = u.rep) ∧
      t.issue.pc = x.seq.pc ∧ t.issue.issue = x.seq.issueNo ∧
      (decodeFaults y u = [] → t.issue.found = s.issue.found ++ (guardFaults y).map (fun p => ⟨0x0B, p, []⟩) ++
          (issueFaults y u).map (fun p => ⟨0x01, p, []⟩) ∧ t.agenda = liveSlots y ++ .commit :: s.agenda) ∧
      (decodeFaults y u ≠ [] → t.issue.found = s.issue.found ++ (decodeFaults y u).map (fun p => ⟨0x01, p, []⟩) ∧
        t.agenda = .commit :: s.agenda))

/-- A fault of an issue is delivered before another (R380). -/
def foundFirst (f g : Found) : Prop :=
  faultOrder.idxOf f.code < faultOrder.idxOf g.code ∨ (faultOrder.idxOf f.code = faultOrder.idxOf g.code ∧ f.slot < g.slot)

/-- System registers of a brick whose only field that a write changes is V, which a 1 clears (R11, R121, R145, R172, R250, R289, R306,
R312, R357). -/
def validOnly : List Nat := [0x027, 0x029, 0x02A, 0x043, 0x047, 0x048, 0x04A, 0x04F]

/-- V is cleared where the value written has a 1 there, and the other bits stay (R11). -/
def clearsV (old v new : Word) : Prop :=
  new.getLsbD 0 = (old.getLsbD 0 && !v.getLsbD 0) ∧ ∀ i, 0 < i → new.getLsbD i = old.getLsbD i

/-- A loop level as it is stored: 6 as 7 (R130, R230). -/
def levelStored (l : Nat) : Nat := if l = 6 then 7 else l

/-- The value that an MTSR of v leaves in a register of a brick: its reserved fields zero, its fields as their tables store them, the
others as they were (R11, R130, R172, R230, R262, R306, R357). -/
def regWritten (n : Nat) (old v new : Word) : Prop :=
  let w := v.toNat
  (n = 0x023 → new.toNat = levelStored (field w 0 3) + 2 ^ 8 * field w 8 6) ∧
  (n = 0x024 → new.toNat = field w 0 6 + 2 ^ 8 * field w 8 4) ∧
  (n = 0x02B → new.toNat = field w 0 32) ∧
  (n = 0x045 → new.toNat = field w 0 5 + 2 ^ 5 * levelStored (field w 5 3) + 2 ^ 8 * (field w 8 5 % (field w 0 5 + 1))) ∧
  (n = 0x049 → field new.toNat 0 32 = (if field w 0 32 = 0 then 0 else field old.toNat 0 32) ∧
    field new.toNat 32 32 = (if field w 32 32 = 0 then 0 else field old.toNat 32 32)) ∧
  (n = 0x04C → new.toNat = field w 0 30 + 2 ^ 32 * field w 32 16) ∧
  (n = 0x026 ∨ n = 0x04D ∨ n = 0x04E → new = v) ∧
  (n ∈ validOnly → clearsV old v new)

/-- Only one effect is in flight on a brick, and it is due in a part of this cycle. -/
def landsAlone (s : State) (b ph : Nat) (f : Flight) : Prop :=
  (s.brick b).flights = [f] ∧ f.dest.phase = ph ∧ (if ph = 2 then f.due < (s.brick b).seq.clk else f.due ≤ (s.brick b).seq.clk)

/-- The effect leaves the brick, which is otherwise as the new one says; nothing else of the package changes. -/
def landed (s : State) (b ph : Nat) (y : Brick) : Prop :=
  exec (.resultLanding b ph) s = .next (s.setBrick b y)

end Sys2Proof.Rules

/-- R29 to R33, R42 to R48, R52, R177, R184, R379: on a plan cycle of its sequencer a brick removes a bundle, or waits out its gap or
its settle cycle, or issues it; a bundle that does not start where the program counter stands is illegal; a settle bundle reached after
its cycle is a course slip, one reached by its cycle and frozen over it issues on the first cycle on which the brick is not (the model's
choice: log entry 16). An issue without fault completes: the counts advance, and at the last one the program counter goes to
the next bundle; an issue with one is nullified whole, and the first of its faults is found at once, unless a late fault of the same cycle comes before
it (R381); the bundles removed before it stay removed (the model's choice: log entry 124), and the other bricks of a task that is not
bound do not run the cycle (R382). (That a code which R380 leaves out
comes after the listed ones, log entry 12. The model's choices too: a settle bundle that opens its region, log entry 96; a guard with an uncorrectable error, log entry 97; decode after removal,
log entry 95; a settle bundle that decode finds illegal waits for its cycle, or slips, before it is illegal, log entry 123; one with a gap
or a repeat is illegal after its gap, log entry 87.) -/
def Obligations.BundlesIssue : Prop :=
  (∀ (b : Nat) (s : State), (s.brick b).seq.ended = true →
    exec (.bundleIssue b) s = .next { begun s b with agenda := .commit :: s.agenda }) ∧
  (∀ (b : Nat) (s : State), let x := s.brick b
    let u := bundleAt x x.seq.pc
    x.seq.ended = false → unhindered s b →
    (x.seq.gapLeft = some 0 → bundleIssues s b u) ∧
    (∀ n, x.seq.gapLeft = some (n + 1) → exec (.bundleIssue b) s = .next (passes s b fun q => { q with gapLeft := some n })) ∧
    (x.seq.gapLeft = none → fetchOk x u = false → exec (.bundleIssue b) s = .next { begun s b with
      issue := { (begun s b).issue with found := s.issue.found ++ [⟨0x01, 0, []⟩] }
      agenda := .commit :: s.agenda }) ∧
    (x.seq.gapLeft = none → fetchOk x u = true → elided x u = true → exec (.bundleIssue b) s = .next { (begun s b).onBrick b fun x =>
      removeBundle x u with agenda := .event (.bundleIssue b) :: s.agenda }) ∧
    (x.seq.gapLeft = none → fetchOk x u = true → elided x u = false →
      (settling u = false → u.gap = 0 → bundleIssues s b u) ∧
      (settling u = false → ∀ n, u.gap = n + 1 → exec (.bundleIssue b) s = .next (passes s b fun q => { q with gapLeft := some n })) ∧
      (settling u = true → (∃ a, x.seq.arrived = some a ∧ a ≤ settleDue s b u) → settleDue s b u < s.tb.ct → bundleIssues s b u) ∧
      (settling u = true → s.tb.ct = settleDue s b u → (∀ a, x.seq.arrived = some a → a ≤ s.tb.ct) → bundleIssues s b u ∧ (x.seq.arrived = none →
        ∀ t, exec (.bundleIssue b) s = .next t → (t.brick b).seq.offset = field ((u.word 0).getD 0) 0 24 ∧
          (t.brick b).seq.slack = field ((u.word 0).getD 0) 24 10)) ∧
      (settling u = true → s.tb.ct < settleDue s b u → exec (.bundleIssue b) s = .next (passes s b (reachedSettle s.tb.ct u))) ∧
      (settling u = true → settleDue s b u < s.tb.ct → (∀ a, x.seq.arrived = some a → settleDue s b u < a) → exec (.bundleIssue b) s = .next { begun s b with
        issue := { (begun s b).issue with found := s.issue.found ++ [⟨0x0C, 0, []⟩] }
        agenda := .commit :: s.agenda }))) ∧
  (∀ (rest : List Todo) (s : State), s.agenda = .commit :: rest → s.mason.pwrL2 = false → s.issue.wait = false →
    let b := s.issue.brick
    let x := s.brick b
    let start := s.issue.start.getD x
    (s.issue.found = [] → s.issue.active = true → s.issue.clears = [] → s.issue.leave = none → s.issue.jump = none → x.seq.depth = 0 →
      ∃ t, step s = .next t ∧ t.agenda = rest ∧ t.ran = s.ran ++ [b] ∧ (t.brick b).seq.clk = x.seq.clk + 1 ∧ (t.brick b).seq.pt = x.seq.pt + 1 ∧
        (s.issue.last = true → (t.brick b).seq.pc = nextBundle x s.issue.pc ∧ (t.brick b).seq.issueNo = 0 ∧ (t.brick b).seq.gapLeft = none) ∧
        (s.issue.last = false → (t.brick b).seq.pc = x.seq.pc ∧ (t.brick b).seq.issueNo = s.issue.issue + 1 ∧
          (t.brick b).seq.gapLeft = some 0) ∧
        t.brick b = { x with seq := (t.brick b).seq } ∧ ∀ c, c ≠ b → t.brick c = s.brick c) ∧
    (s.issue.found ≠ [] → (s.issue.saved.getD x).trap.found.length ≠ start.trap.found.length →
      ∃ t, step s = .next t ∧ t.agenda = rest ∧ t.ran = s.ran ++ [b] ∧ (∀ c, c ≠ b → t.brick c = s.brick c) ∧
        let y := s.issue.saved.getD x
        t.brick b = { y with seq := { y.seq with clk := y.seq.clk + 1, pt := y.seq.pt + 1 } }) ∧
    (s.issue.found ≠ [] → start.trap.found = [] → (s.issue.saved.getD x).trap.found = [] → (s.issue.saved.getD x).held = [] →
      (∀ q ∈ s.channels, q.2.atomics = []) →
      ∃ f ∈ s.issue.found, ∃ t, (∀ g ∈ s.issue.found, ¬ foundFirst g f) ∧ step s = .next t ∧
        (∃ g, (t.brick b).trap.found = [g] ∧ g.code = f.code ∧ g.slot = f.slot ∧ g.pc = s.issue.pc ∧ g.issue = s.issue.issue ∧
          g.cycle = s.tb.ct ∧ g.regs = f.regs ∧ g.late = (decide (f.code = 0x0C) || decide (f.code = 0x10))) ∧
        Todo.event (.trapPoint b) ∈ t.agenda ∧ (t.brick b).sc = start.sc ∧ (t.brick b).vec = start.vec ∧ (t.brick b).ring = start.ring ∧
        (t.brick b).mx = start.mx ∧ (t.brick b).hod = start.hod ∧ (t.brick b).flights = start.flights ∧ (t.brick b).held = start.held ∧
        (let was := if s.issue.start.isSome then s.issue.saved.getD x else x
         (t.brick b).seq.pc = was.seq.pc ∧ (t.brick b).seq.clk = was.seq.clk ∧ (t.brick b).seq.held = was.seq.held) ∧
        (s.before = [] → t.ran = s.ran ∧ ∀ c, c ≠ b → t.brick c = s.brick c) ∧
        (∀ c k z, c ≠ b → s.before = [(c, z)] → start.task = some k → x.task = some k → (s.task k).bound = false → f.code ≠ 0x10 →
          c ∈ (s.task k).mask → z.task = some k → (s.brick c).trap.trapped = false → z.frz.ceUntil = 0 → z.frz.driftUntil = 0 → c ∉ t.ran ∧ t.brick c = { z with
            frz := { z.frz with withTask := true, since := if z.frz.withTask then z.frz.since else s.tb.ct }
            seq := { z.seq with c0 := z.seq.c0 + 1, origin := z.seq.origin + 1 } }) ∧
        (∀ c z, c ≠ b → s.before = [(c, z)] → (s.brick c).trap.trapped = true → t.ran = s.ran ∧ t.brick c = s.brick c)))

/-- R39, R40, R155, R161, R166, R195, R201, R202: a result lands at its cycle in its destination and in its unit's latch: the enabled
bytes of a cluster register, all of a scalar register or a predicate; a value joins its lane; a line is written in every block of
the mask, the bytes of a scalar store are, a tag is set; LD reads its bytes and lands them extended. R168, R172: a correctable error
is counted and freezes the brick for eight cycles. Nothing else changes. (That a predicate takes the whole result whatever the guard's mask
is the model's choice, from R385: log entry 14.) -/
def Sys2Proof.Rules.ValuesLand : Prop :=
  (∀ (b r : Nat) (f : Flight) (s : State), landsAlone s b 0 f → f.dest = .sreg r → let x := s.brick b
    let v := f.value.setWidth 64
    landed s b 0 { x with
      flights := []
      sc := { x.sc with
        s := tput 0 x.sc.s r v
        latch := if f.latch then tput 0 x.sc.latch (f.slot - 1) v else x.sc.latch
        ue := x.sc.ue.filter fun i => decide (i ≠ r) } }) ∧
  (∀ (b i : Nat) (f : Flight) (s : State), landsAlone s b 0 f → f.dest = .qpred i → let x := s.brick b
    let v := f.value.toNat % 2 == 1
    landed s b 0 { x with
      flights := []
      sc := { x.sc with
        q := tput false x.sc.q i v
        latch := if f.latch then tput 0 x.sc.latch (f.slot - 1) (if v then 1 else 0) else x.sc.latch } }) ∧
  (∀ (b c r : Nat) (f : Flight) (s : State), landsAlone s b 0 f → f.dest = .vreg c r → let x := s.brick b
    let old := tget 0 x.vec.v (1024 * c + r)
    ∃ t, exec (.resultLanding b 0) s = .next t ∧ t = { s with bricks := t.bricks } ∧ (∀ d, d ≠ b → t.brick d = s.brick d) ∧
      (let y := t.brick b
       (∀ i, i < 512 → (tget 0 y.vec.v (1024 * c + r)).getLsbD i = if f.mask.getLsbD (i / 8) then f.value.getLsbD i else old.getLsbD i) ∧
        (∀ k, k ≠ 1024 * c + r → tget 0 y.vec.v k = tget 0 x.vec.v k) ∧
        (f.latch = true → tget 0 y.vec.latch (3 * ((f.slot - 3) / 3) + (f.slot - 3) % 3) = tget 0 y.vec.v (1024 * c + r)) ∧
        (f.latch = false → y.vec.latch = x.vec.latch) ∧ y.vec.p = x.vec.p ∧ y.vec.patterns = x.vec.patterns ∧
        (f.ev.any = false → y.pollenNew = x.pollenNew) ∧ (f.ev.any = true → y.pollenNew.length = x.pollenNew.length + 1) ∧
        y = { x with flights := [], vec := y.vec, pollenNew := y.pollenNew })) ∧
  (∀ (b c i : Nat) (f : Flight) (s : State), landsAlone s b 0 f → f.dest = .ppred c i → f.ev.any = false → let x := s.brick b
    ∃ t, exec (.resultLanding b 0) s = .next t ∧ t = { s with bricks := t.bricks } ∧ (∀ d, d ≠ b → t.brick d = s.brick d) ∧
      (let y := t.brick b
       tget 0 y.vec.p (16 * c + i) = f.value.setWidth 64 ∧ (∀ k, k ≠ 16 * c + i → tget 0 y.vec.p k = tget 0 x.vec.p k) ∧
        y.vec.v = x.vec.v ∧ y = { x with flights := [], vec := y.vec })) ∧
  (∀ (b lane st : Nat) (aw : Bool) (f : Flight) (s : State), landsAlone s b 0 f → f.dest = .drive aw lane st → let x := s.brick b
    landed s b 0 { x with
      flights := []
      ring := { x.ring with lanes := x.ring.lanes.map fun l =>
          if l.aw = aw ∧ l.lane = lane ∧ l.station = st ∧ l.clk = f.due then { l with data := some f.value } else l } }) ∧
  (∀ (b g : Nat) (f : Flight) (s : State), landsAlone s b 2 f → f.dest = .tag g → let x := s.brick b
    landed s b 2 { x with flights := [], ring := { x.ring with tags := tput 0xFFFF#16 x.ring.tags g (f.value.setWidth 16) } }) ∧
  (∀ (b blocks line : Nat) (f : Flight) (s : State), landsAlone s b 2 f → f.dest = .ringLine blocks line → line < 4096 →
    ∃ t, exec (.resultLanding b 2) s = .next t ∧ t = { s with bricks := t.bricks } ∧ (∀ d, d ≠ b → t.brick d = s.brick d) ∧
      (let y := t.brick b
       (∀ j, j < 8 → blocks / 2 ^ j % 2 = 1 → readLine y.ring.mem (64 * (4096 * j + line)) = f.value) ∧
        (∀ a, (∀ j, j < 8 → blocks / 2 ^ j % 2 = 1 → a < 64 * (4096 * j + line) ∨ 64 * (4096 * j + line) + 64 ≤ a) →
          readByte y.ring.mem a = readByte (s.brick b).ring.mem a) ∧
        y.ring.lanes = (s.brick b).ring.lanes ∧ y.ring.tags = (s.brick b).ring.tags ∧ y = { s.brick b with flights := [], ring := y.ring })) ∧
  (∀ (b addr size : Nat) (f : Flight) (s : State), landsAlone s b 2 f → f.dest = .ringStore addr size →
    ∃ t, exec (.resultLanding b 2) s = .next t ∧ t = { s with bricks := t.bricks } ∧ (∀ d, d ≠ b → t.brick d = s.brick d) ∧
      (let y := t.brick b
       bytesWord (readBytes y.ring.mem addr (2 ^ size)) = f.value.toNat % 256 ^ 2 ^ size ∧
        (∀ a, (a < addr ∨ addr + 2 ^ size ≤ a) → readByte y.ring.mem a = readByte (s.brick b).ring.mem a) ∧
        y.ring.poison = (s.brick b).ring.poison ∧ y = { s.brick b with flights := [], ring := y.ring })) ∧
  (∀ (b addr size r fin : Nat) (zx : Bool) (f : Flight) (s : State), landsAlone s b 1 f → f.dest = .readWord addr size zx r fin →
    size < 4 → (s.brick b).seq.clk < fin → (s.brick b).ring.ce = [] → (s.brick b).ring.ue = [] → (s.brick b).ring.poison = [] →
    let loaded := bytesWord (readBytes (s.brick b).ring.mem addr (2 ^ size))
    ∃ v : Word, (zx = true → v.toNat = loaded) ∧ (zx = false → v.toInt = toSigned (8 * 2 ^ size) loaded) ∧
      landed s b 1 { s.brick b with flights := [{ f with due := fin, dest := .sreg r, value := v.setWidth 512 }] }) ∧
  (∀ (b : Nat) (s : State), let x := s.brick b
    ∃ t, exec (.correctableError b) s = .next t ∧ t = { s with bricks := t.bricks } ∧ (∀ d, d ≠ b → t.brick d = s.brick d) ∧
      field (sysGet (t.brick b) 0x049).toNat 0 32 = min (field (sysGet x 0x049).toNat 0 32 + 1) 0xFFFFFFFF ∧
      field (sysGet (t.brick b) 0x049).toNat 32 32 = field (sysGet x 0x049).toNat 32 32 ∧
      (∀ n, n ≠ 0x049 → sysGet (t.brick b) n = sysGet x n) ∧
      t.brick b = { x with sys := (t.brick b).sys, frz := { x.frz with ceFrom := (t.brick b).frz.ceFrom, ceUntil := max x.frz.ceUntil (s.tb.ct + 8) } } ∧
      (x.frz.ceUntil = 0 ∨ x.frz.ceUntil < s.tb.ct → (t.brick b).frz.ceFrom = s.tb.ct + 1) ∧
      (x.frz.ceUntil ≠ 0 → s.tb.ct ≤ x.frz.ceUntil → (t.brick b).frz.ceFrom = x.frz.ceFrom)) ∧
  (∀ (b : Nat) (s : State), let x := s.brick b
    exec (.freezeEnd b) s = .next (s.setBrick b
      { x with frz := { x.frz with ceUntil := if x.frz.ceUntil < s.tb.ct then 0 else x.frz.ceUntil } }))

/-- R158, R161, R167: the bundle-port read of MRD and MRDT takes its line on its cycle and drives it on the cycle that follows from its issue;
that of a narrow ST leaves its write to do; an uncorrectable word or a poisoned line is a late fault 0x0B that RGFSTAT is to record, nothing
is driven and nothing written. -/
def Sys2Proof.Rules.ReadsLand : Prop :=
  (∀ (b lane st block line fin : Nat) (aw : Bool) (f : Flight) (s : State), landsAlone s b 1 f → f.dest = .readLine aw lane st block line fin →
    let x := s.brick b
    x.ring.ce = [] → x.ring.ue = [] → x.ring.poison = [] →
    let d := readLine x.ring.mem (262144 * block + 64 * line)
    (x.seq.clk < fin → landed s b 1 { x with flights := [{ f with due := fin, dest := .drive aw lane st, value := d }] }) ∧
    (x.seq.clk = fin → landed s b 1 { x with
      flights := []
      ring := { x.ring with lanes := x.ring.lanes.map fun l =>
          if l.aw = aw ∧ l.lane = lane ∧ l.station = st ∧ l.clk = fin then { l with data := some d } else l } })) ∧
  (∀ (b addr size fin : Nat) (f : Flight) (s : State), landsAlone s b 1 f → f.dest = .readStore addr size fin →
    let x := s.brick b
    x.ring.ce = [] → x.ring.ue = [] → x.ring.poison = [] → x.seq.clk ≤ fin →
    landed s b 1 { x with flights := [{ f with due := fin, dest := .ringStore addr size }] }) ∧
  (∀ (b block line : Nat) (f : Flight) (s : State), landsAlone s b 1 f →
    ((∃ aw lane st fin, f.dest = .readLine aw lane st block line fin) ∨
      (∃ addr size fin, f.dest = .readStore addr size fin ∧ block = addr / 2 ^ 18 ∧ line = addr / 64 % 4096) ∨
      ∃ addr size zx r fin, f.dest = .readWord addr size zx r fin ∧ block = addr / 2 ^ 18 ∧ line = addr / 64 % 4096) →
    let x := s.brick b
    block < 8 → line < 4096 → x.ring.ce = [] → 4096 * block + line ∈ x.ring.poison →
    ∃ t w, exec (.resultLanding b 1) s = .next t ∧ t = { s with bricks := t.bricks } ∧ (∀ d, d ≠ b → t.brick d = s.brick d) ∧
      field w.toNat 0 3 = 1 + 2 * 2 ∧ field w.toNat 13 3 = block ∧ field w.toNat 16 12 = line ∧ field w.toNat 32 32 = s.tb.ct % 2 ^ 32 ∧
      (let y := t.brick b
       (∃ g, y.trap.found = x.trap.found ++ [g] ∧ g.code = 0x0B ∧ g.slot = f.slot ∧ g.pc = f.pc ∧ g.issue = f.issue ∧ g.late = true ∧
          g.cycle = s.tb.ct ∧ g.regs = [(0x048, w)]) ∧
        y = { x with flights := y.flights, trap := { x.trap with found := y.trap.found } }))

/-- R197, R211, R239, with the register tables of R95, R130, R172, R230, R262, R306 and R357: an MTSR lands in its register and prevails over
the hardware's updates of the cycle; one that clears bits, or steps a partition's rows, waits for them; a pattern takes the enabled bytes,
bit 7 of each clear; the active bank changes; a slot is claimed, or unclaimed with its bytes and its marks cleared. -/
def Sys2Proof.Rules.RegistersLand : Prop :=
  (∀ (b n : Nat) (f : Flight) (s : State), landsAlone s b 0 f → f.dest = .sys n → n ≠ 0x028 → let x := s.brick b
    let v := f.value.setWidth 64
    let y := { x with flights := [], mtsr := x.mtsr ++ [(n, v)] }
    (n = 0x02D ∨ n = 0x040 ∨ n = 0x041 ∨ n = 0x049 ∨ (n ∈ validOnly ∧ n ≠ 0x027) → landed s b 0 y) ∧
    (¬ (n = 0x02D ∨ n = 0x040 ∨ n = 0x041 ∨ n = 0x049 ∨ (n ∈ validOnly ∧ n ≠ 0x027)) →
      exec (.resultLanding b 0) s = .next ((s.setBrick b y).writeSys b n v))) ∧
  (∀ (b n : Nat) (v : Word) (s : State), (s.brick b).mtsr = [(n, v)] →
    s.settleSys b = (s.writeSys b n v).onBrick b fun x => { x with mtsr := [] }) ∧
  (∀ (b n : Nat) (v : Word) (s : State), let t := s.writeSys b n v
    let x := s.brick b
    (n ∈ [0x023, 0x024, 0x026, 0x02B, 0x045, 0x049, 0x04C, 0x04D, 0x04E] ∨ n ∈ validOnly →
      ∃ y : Brick, t = s.setBrick b y ∧ regWritten n (sysGet x n) v (sysGet y n) ∧
        (∀ m, m ≠ n → (n = 0x026 → m ≠ 0x027) → sysGet y m = sysGet x m) ∧
        (n = 0x026 → field (sysGet y 0x027).toNat 0 32 = 1 ∧ field (sysGet y 0x027).toNat 32 32 = s.tb.ct % 2 ^ 32) ∧
        y = { x with sys := y.sys, formats := if n = 0x024 then tput 0 x.formats (field v.toNat 0 6) (field v.toNat 8 4) else x.formats }) ∧
    (n = 0x02D → (v.getLsbD 33 = false → t = s) ∧ (v.getLsbD 33 = true →
      t = { s with tb := { s.tb with overClear := t.tb.overClear } } ∧ ∀ c, c ∈ t.tb.overClear ↔ c = b ∨ c ∈ s.tb.overClear)) ∧
    (n = 0x040 → t = if field v.toNat 0 14 ≤ 15257 then s.onPart (s.partOf b) fun p => { p with htstep := field v.toNat 0 14 } else s) ∧
    (n = 0x041 → ∃ w, t = (s.onPart (s.partOf b) fun p => { p with htfstat := w }) ∧ clearsV (s.part (s.partOf b)).htfstat v w)) ∧
  (∀ (b bank p : Nat) (f : Flight) (s : State), landsAlone s b 0 f → f.dest = .pattern bank p → let x := s.brick b
    let old := tget identityPattern x.vec.patterns (64 * bank + p)
    ∃ t, exec (.resultLanding b 0) s = .next t ∧ t = { s with bricks := t.bricks } ∧ (∀ d, d ≠ b → t.brick d = s.brick d) ∧
      (let y := t.brick b
       (∀ j, j < 64 → elem 8 (tget identityPattern y.vec.patterns (64 * bank + p)) j =
          if f.mask.getLsbD j then elem 8 f.value j % 128 else elem 8 old j) ∧
        (∀ k, k ≠ 64 * bank + p → tget identityPattern y.vec.patterns k = tget identityPattern x.vec.patterns k) ∧
        y = { x with flights := [], vec := { x.vec with patterns := y.vec.patterns, ue := y.vec.ue } } ∧
        (f.mask ≠ BitVec.allOnes 64 → y.vec.ue = x.vec.ue) ∧
        (f.mask = BitVec.allOnes 64 → ∀ i, i ∈ y.vec.ue ↔ i ∈ x.vec.ue ∧ i ≠ 8320 + (64 * bank + p)))) ∧
  (∀ (b : Nat) (f : Flight) (s : State), landsAlone s b 0 f → f.dest = .bankSwap → let x := s.brick b
    landed s b 0 { x with flights := [], vec := { x.vec with activeBank := 1 - x.vec.activeBank } }) ∧
  (∀ (b i : Nat) (f : Flight) (s : State), landsAlone s b 0 f → (f.dest = .claim i ∨ f.dest = .release i) → let x := s.brick b
    ∃ t, exec (.resultLanding b 0) s = .next t ∧ t = { s with bricks := t.bricks } ∧ (∀ d, d ≠ b → t.brick d = s.brick d) ∧
      (let y := t.brick b
       (f.dest = .claim i → (∀ k, k ∈ y.mx.claim ↔ k = i ∨ k ∈ x.mx.claim) ∧
          y = { x with flights := [], mx := { x.mx with claim := y.mx.claim } }) ∧
        (f.dest = .release i → (∀ k, k ∈ y.mx.claim ↔ k ∈ x.mx.claim ∧ k ≠ i) ∧
          (∀ k, k ∈ y.mx.omPoison ↔ k ∈ x.mx.omPoison ∧ k ≠ i) ∧ (∀ w, w ∈ y.mx.omUe ↔ w ∈ x.mx.omUe ∧ w / 1024 ≠ i) ∧
          (∀ a, readByte y.mx.om a = if 8192 * i ≤ a ∧ a < 8192 * (i + 1) then 0 else readByte x.mx.om a) ∧
          y = { x with flights := [], mx := { x.mx with claim := y.mx.claim, omPoison := y.mx.omPoison, omUe := y.mx.omUe, om := y.mx.om } })))

/-- R240 to R243, R245 to R248, R251, R252: a port write fills its row segment, an addition adds to it, each word rounded once, with one
record where one raised an event; MZERO clears its tile; a product lands in its tile or pair unless a successor has taken its result, MDRAIN and
MOML in their slots, each with its poison and its record, and poison consumed is a late fault 0x0B; each further tap of a MOML joins its lines, an
empty one is a late fault 0x04 that leaves the lines tapped before written. -/
def Sys2Proof.Rules.MatrixLands : Prop :=
  (∀ (b tile row seg : Nat) (add : Bool) (f : Flight) (s : State), landsAlone s b 2 f → f.dest = .accSeg add tile row seg → let x := s.brick b
    let at' := 4096 * tile + 64 * row + 16 * seg
    let old (i : Nat) : Nat := if x.mx.accUe.contains ((at' + i) / 2) then 0xFFC00BAD else (tget 0 x.mx.acc (at' + i)).toNat
    let sum (i : Nat) := f32.add (old i) (elem 32 f.value i)
    ∃ t, exec (.resultLanding b 2) s = .next t ∧ t = { s with bricks := t.bricks } ∧ (∀ d, d ≠ b → t.brick d = s.brick d) ∧
      (let y := t.brick b
       (∀ i, i < 16 → tget 0 y.mx.acc (at' + i) = BitVec.ofNat 32 (if add then (sum i).1 else elem 32 f.value i)) ∧
        (∀ k, (k < at' ∨ at' + 16 ≤ k) → tget 0 y.mx.acc k = tget 0 x.mx.acc k) ∧
        (∀ w, w ∈ y.mx.accUe ↔ w ∈ x.mx.accUe ∧ (2 * w < at' ∨ at' + 16 ≤ 2 * w)) ∧
        (∀ k, k ∈ y.mx.accPoison ↔ k ∈ x.mx.accPoison ∨ (add = true ∧ k = tile ∧ ∃ i, i < 16 ∧ (at' + i) / 2 ∈ x.mx.accUe)) ∧
        (add = false ∨ (∀ i, i < 16 → (sum i).2.any = false) → y.pollenNew = x.pollenNew) ∧
        (add = true → (∃ i, i < 16 ∧ (sum i).2.any = true) → ∃ r, y.pollenNew = x.pollenNew ++ [(f.slot, r)] ∧
          field r.toNat 0 8 = 0x02 ∧ field r.toNat 8 6 = f.slot % 2 ^ 6 ∧ field r.toNat 16 34 = f.pc % 2 ^ 34 ∧ field r.toNat 50 8 = f.issue % 2 ^ 8 ∧
          (row < 64 → field r.toNat 64 64 = 2 ^ row)) ∧
        y = { x with
          flights := []
          mx := { x.mx with acc := y.mx.acc, accUe := y.mx.accUe, accPoison := y.mx.accPoison }
          pollenNew := y.pollenNew })) ∧
  (∀ (b tile : Nat) (f : Flight) (s : State), landsAlone s b 2 f → f.dest = .accZero tile → let x := s.brick b
    ∃ t, exec (.resultLanding b 2) s = .next t ∧ t = { s with bricks := t.bricks } ∧ (∀ d, d ≠ b → t.brick d = s.brick d) ∧
      (let y := t.brick b
       (∀ k, tget 0 y.mx.acc k = if k / 4096 = tile then 0 else tget 0 x.mx.acc k) ∧
        (∀ k, k ∈ y.mx.accPoison ↔ k ∈ x.mx.accPoison ∧ k ≠ tile) ∧ (∀ w, w ∈ y.mx.accUe ↔ w ∈ x.mx.accUe ∧ w / 2048 ≠ tile) ∧
        y = { x with flights := [], mx := { x.mx with acc := y.mx.acc, accPoison := y.mx.accPoison, accUe := y.mx.accUe } })) ∧
  (∀ (b : Nat) (f : MxFlight) (s : State), (s.brick b).mx.flights = [f] → f.due ≤ (s.brick b).seq.clk →
    let x := s.brick b
    let tiles := if f.fmt = 2 then [f.dst, (f.dst + 1) % 16] else [f.dst]
    let slots := (List.range (if f.fmt = 0 then 2 else if f.fmt = 2 then 4 else 1)).map fun m => (f.dst + m) % 16
    ∃ t, exec (.resultLanding b 3) s = .next t ∧ t = { s with bricks := t.bricks } ∧ (∀ d, d ≠ b → t.brick d = s.brick d) ∧
      (let y := t.brick b
       (f.ev.any = false → y.pollenNew = x.pollenNew) ∧
        (f.ev.any = true → ∃ r, y.pollenNew = x.pollenNew ++ [(35, r)] ∧ field r.toNat 0 8 = 0x02 ∧ field r.toNat 8 6 = 35 ∧
          field r.toNat 16 34 = f.pc % 2 ^ 34 ∧ field r.toNat 50 8 = f.issue % 2 ^ 8 ∧ field r.toNat 64 64 = f.rows.toNat) ∧
        (f.poison = false → y.trap = x.trap) ∧
        (f.poison = true → ∃ g w, y.trap = { x.trap with found := x.trap.found ++ [g] } ∧ g.code = 0x0B ∧ g.slot = 35 ∧ g.pc = f.pc ∧
          g.issue = f.issue ∧ g.late = true ∧ g.cycle = s.tb.ct ∧ g.regs = [(0x04A, w)] ∧ field w.toNat 0 6 = 1 + 2 * 5 ∧
          (f.dst < 16 → f.lane < 16 → field w.toNat 6 4 = (if f.opc = 4 then f.lane else f.dst) ∧ field w.toNat 32 32 = s.tb.ct % 2 ^ 32)) ∧
        (f.opc ≤ 2 → f.superseded = true → y = { x with mx := { x.mx with flights := [] }, pollenNew := y.pollenNew, trap := y.trap }) ∧
        (f.opc ≤ 2 → f.superseded = false → f.words.length = 4096 * tiles.length → f.dst < 16 →
          (∀ j tile i, tiles[j]? = some tile → i < 4096 → tget 0 y.mx.acc (4096 * tile + i) = f.words.getD (4096 * j + i) 0) ∧
          (∀ k, k / 4096 ∉ tiles → tget 0 y.mx.acc k = tget 0 x.mx.acc k) ∧
          (∀ k, k ∈ y.mx.accPoison ↔ (k ∈ x.mx.accPoison ∧ k ∉ tiles) ∨ (f.poison = true ∧ k ∈ tiles)) ∧
          (∀ w, w ∈ y.mx.accUe ↔ w ∈ x.mx.accUe ∧ w / 2048 ∉ tiles) ∧
          y = { x with
            mx := { x.mx with flights := [], acc := y.mx.acc, accPoison := y.mx.accPoison, accUe := y.mx.accUe }
            pollenNew := y.pollenNew, trap := y.trap }) ∧
        (2 < f.opc →
          (∀ i d, f.lines[i]? = some d → readLine y.mx.om (8192 * f.dst + 64 * i) = d) ∧
          (∀ a, (a < 8192 * f.dst ∨ 8192 * f.dst + 64 * f.lines.length ≤ a) → readByte y.mx.om a = readByte x.mx.om a) ∧
          (∀ w, w ∈ y.mx.omUe ↔ w ∈ x.mx.omUe ∧ (w < 1024 * f.dst ∨ 1024 * f.dst + 8 * f.lines.length ≤ w)) ∧
          (f.opc = 4 → ∀ k, k ∈ y.mx.omPoison ↔ (k ∈ x.mx.omPoison ∧ k ∉ slots) ∨ (f.poison = true ∧ k ∈ slots)) ∧
          (f.opc = 7 → ∀ k, k ∈ y.mx.omPoison ↔ k ∈ x.mx.omPoison ∧ k ≠ f.dst) ∧
          y = { x with
            mx := { x.mx with flights := [], om := y.mx.om, omPoison := y.mx.omPoison, omUe := y.mx.omUe }
            pollenNew := y.pollenNew, trap := y.trap }))) ∧
  (∀ (b : Nat) (f : MxFlight) (s : State), (s.brick b).mx.flights = [f] → (s.brick b).hod.flights = [] → f.opc = 7 → f.left ≠ 0 →
    let x := s.brick b
    let taps := (List.range f.width).map fun i => tap x f.aw (f.lane + i) 16
    ((∀ d ∈ taps, d ≠ none) → exec (.resultLanding b 4) s = .next (s.setBrick b { x with
      mx := { x.mx with flights := [{ f with left := f.left - 1, lines := f.lines ++ taps.filterMap id }] } })) ∧
    (∀ i, i < f.width → tap x f.aw (f.lane + i) 16 = none → (∀ j, j < i → tap x f.aw (f.lane + j) 16 ≠ none) →
      ∃ t g w, exec (.resultLanding b 4) s = .next t ∧ t = { s with bricks := t.bricks } ∧ (∀ d, d ≠ b → t.brick d = s.brick d) ∧
        (let y := t.brick b
         (∀ i d, f.lines[i]? = some d → readLine y.mx.om (8192 * f.dst + 64 * i) = d) ∧
          (∀ a, (a < 8192 * f.dst ∨ 8192 * f.dst + 64 * f.lines.length ≤ a) → readByte y.mx.om a = readByte x.mx.om a) ∧
          y = { x with
            mx := { x.mx with flights := [], om := y.mx.om, omUe := y.mx.omUe }
            trap := { x.trap with found := x.trap.found ++ [g] } } ∧
          g.code = 0x04 ∧ g.slot = 35 ∧ g.pc = f.pc ∧ g.issue = f.issue ∧ g.late = true ∧ g.cycle = s.tb.ct ∧ g.regs = [(0x048, w)] ∧
          field w.toNat 0 3 = 1 + 2 * 1 ∧ field w.toNat 3 5 = 16 ∧ (f.lane + i < 16 → field w.toNat 8 1 = f.aw.toNat ∧ field w.toNat 9 4 = f.lane + i))))

/-- Results land at their cycle in their destination, and nothing else changes: values, lines and reads of the ring, registers, patterns and
claims, the matrix engine's. -/
def Obligations.ResultsLand : Prop := Rules.ValuesLand ∧ Rules.ReadsLand ∧ Rules.RegistersLand ∧ Rules.MatrixLands
namespace Sys2Proof.Rules

/-- r is the pattern of F32 nearest to √(n / d) units: it and any other lie on their sides of their middle (R207, R213). -/
def nearestRoot (n d r : Nat) : Prop :=
  isFinite f32 r ∧ r < 2 ^ 31 ∧ ∀ c, isFinite f32 c → c < 2 ^ 31 → let m := (units f32 r + units f32 c).toNat
    (r < c → 4 * n ≤ d * m ^ 2) ∧ (c < r → d * m ^ 2 ≤ 4 * n) ∧ (c ≠ r → d * m ^ 2 = 4 * n → r % 2 = 0)

/-- What a function of one F32 operand answers for a NaN (R207, R213). -/
def nanIn (op : Nat → Nat × Events) : Prop :=
  ∀ a, isNanOf f32 a → op a = (defaultNan f32, ⟨(op a).2.inv, false, false, false⟩) ∧ ((op a).2.inv = true ↔ isSignalling f32 a)

/-- The patterns that are a zero, and those that are neither a zero nor a NaN. -/
def isZero (f : BinFmt) (w : Nat) : Prop := isFinite f w ∧ units f w = 0
def isOrdinary (f : BinFmt) (w : Nat) : Prop := (isFinite f w ∧ units f w ≠ 0) ∨ ∃ n, w = infOf f n

/-- R207, R209: a fused product, added or subtracted: exact and rounded once for finite operands; the default NaN for a NaN among the
three, and for an infinity times zero, which is invalid whatever the addend; an infinity of the product or of the addend, which are
invalid where they are opposite. -/
def FusedProducts : Prop :=
  ∀ f ∈ [f32, bf16, f64], ∀ (m : Bool) (a b d : Nat), let n := 2 ^ (1 + f.eb + f.fb); a < n → b < n → d < n →
    let p := (isNeg f a != isNeg f b) != m
    let t := units f a * units f b
    (isFinite f a → isFinite f b → isFinite f d →
      roundsOnce f (2 ^ unitExp f) (units f d * 2 ^ unitExp f + (if m then -t else t)) (isNeg f d && p) (f.fma m a b d)) ∧
    (isNanOf f a ∨ isNanOf f b ∨ isNanOf f d → f.fma m a b d = (defaultNan f, ⟨(f.fma m a b d).2.inv, false, false, false⟩) ∧
      ((f.fma m a b d).2.inv = true ↔ isSignalling f a ∨ isSignalling f b ∨ isSignalling f d ∨
        (isZero f a ∧ ∃ n, b = infOf f n) ∨ ((∃ n, a = infOf f n) ∧ isZero f b))) ∧
    (∀ n, isZero f a → f.fma m a (infOf f n) d = (defaultNan f, .invalid) ∧ f.fma m (infOf f n) a d = (defaultNan f, .invalid)) ∧
    (isOrdinary f a → isOrdinary f b → ((∃ n, a = infOf f n) ∨ ∃ n, b = infOf f n) →
      (isFinite f d ∨ d = infOf f p → f.fma m a b d = (infOf f p, .none)) ∧ (d = infOf f (!p) → f.fma m a b d = (defaultNan f, .invalid))) ∧
    (∀ n, isFinite f a → isFinite f b → f.fma m a b (infOf f n) = (infOf f n, .none))

/-- R207, R208, R209, R219: sums, differences and products of finite values are computed exactly and rounded once; a
NaN gives the default NaN, with invalid where it signals; opposite infinities in a sum, and an infinity times zero, are invalid; any other
infinity gives an infinity. -/
def SumsAndProducts : Prop :=
  ∀ f ∈ [f32, bf16, f64],
    (∀ a b, isFinite f a → isFinite f b →
      roundsOnce f 1 (units f a + units f b) (isNeg f a && isNeg f b) (f.add a b) ∧
      roundsOnce f 1 (units f a - units f b) (isNeg f a && !isNeg f b) (f.sub a b) ∧
      roundsOnce f (2 ^ unitExp f) (units f a * units f b) (isNeg f a != isNeg f b) (f.mul a b)) ∧
    (∀ n a, isFinite f a ∨ a = infOf f n → f.add (infOf f n) a = (infOf f n, .none) ∧ f.add a (infOf f n) = (infOf f n, .none)) ∧
    (∀ n a, isFinite f a ∨ a = infOf f (!n) → f.sub (infOf f n) a = (infOf f n, .none) ∧ f.sub a (infOf f n) = (infOf f (!n), .none)) ∧
    (∀ n a, isOrdinary f a → f.mul (infOf f n) a = (infOf f (n != isNeg f a), .none) ∧ f.mul a (infOf f n) = (infOf f (n != isNeg f a), .none)) ∧
    (∀ a b, (isNanOf f a ∨ isNanOf f b) → ∀ op ∈ [f.add, f.sub, f.mul],
      op a b = (defaultNan f, ⟨(op a b).2.inv, false, false, false⟩) ∧ ((op a b).2.inv = true ↔ isSignalling f a ∨ isSignalling f b)) ∧
    (∀ n, f.add (infOf f n) (infOf f (!n)) = (defaultNan f, .invalid) ∧ f.sub (infOf f n) (infOf f n) = (defaultNan f, .invalid)) ∧
    (∀ n a, isFinite f a → units f a = 0 →
      f.mul (infOf f n) a = (defaultNan f, .invalid) ∧ f.mul a (infOf f n) = (defaultNan f, .invalid))

/-- R207, R208: VMIN and VMAX give the smaller and the larger operand, -0 below +0, one NaN giving the other operand and two the default
NaN; the compares order values with -0 = +0 and are false on a NaN, LT and LE then with invalid. (The infinities' patterns have units
beyond every finite one's.) -/
def OrderOperations : Prop :=
  ∀ f ∈ [f32, bf16], ∀ a b, a < 2 ^ (1 + f.eb + f.fb) → b < 2 ^ (1 + f.eb + f.fb) →
    (¬ isNanOf f a → ¬ isNanOf f b →
      f.minmax false a b = (if units f a < units f b ∨ (units f a = units f b ∧ isNeg f a = true) then a else b, .none) ∧
      f.minmax true a b = (if units f b < units f a ∨ (units f a = units f b ∧ isNeg f a = false) then a else b, .none) ∧
      f.cmp 0 a b = (decide (units f a = units f b), .none) ∧ f.cmp 1 a b = (decide (units f a < units f b), .none) ∧
      f.cmp 2 a b = (decide (units f a ≤ units f b), .none)) ∧
    (∀ m, (isNanOf f a → ¬ isNanOf f b → (f.minmax m a b).1 = b) ∧ (¬ isNanOf f a → isNanOf f b → (f.minmax m a b).1 = a) ∧
      (isNanOf f a → isNanOf f b → (f.minmax m a b).1 = defaultNan f) ∧
      (isNanOf f a ∨ isNanOf f b → (f.minmax m a b).2 = ⟨(f.minmax m a b).2.inv, false, false, false⟩ ∧
        ((f.minmax m a b).2.inv = true ↔ isSignalling f a ∨ isSignalling f b))) ∧
    (isNanOf f a ∨ isNanOf f b → f.cmp 1 a b = (false, .invalid) ∧ f.cmp 2 a b = (false, .invalid) ∧ (f.cmp 0 a b).1 = false ∧
      (f.cmp 0 a b).2 = ⟨(f.cmp 0 a b).2.inv, false, false, false⟩ ∧ ((f.cmp 0 a b).2.inv = true ↔ isSignalling f a ∨ isSignalling f b))

/-- R207, R213: VRCP, VDIV, VSQRT and VRSQ round the exact quotient or root once, for every finite operand, and give the table's results
for its special inputs. -/
def QuotientsAndRoots : Prop :=
  let inf := infOf f32
  let nan := defaultNan f32
  let zero := fun n : Bool => if n then 2 ^ 31 else 0
  (∀ a, isFinite f32 a → units f32 a ≠ 0 →
    roundsOnce f32 (units f32 a).natAbs ((units f32 a).sign * 2 ^ 298) false (rcpF32 a)) ∧
  (∀ a b, isFinite f32 a → isFinite f32 b → units f32 b ≠ 0 →
    roundsOnce f32 (units f32 b).natAbs ((units f32 b).sign * units f32 a * 2 ^ 149) (isNeg f32 a != isNeg f32 b) (divF32 a b)) ∧
  (∀ a, isFinite f32 a → 0 < units f32 a → nearestRoot ((units f32 a).toNat * 2 ^ 149) 1 (sqrtF32 a).1 ∧ (sqrtF32 a).2 = .none ∧
    nearestRoot (2 ^ 447) (units f32 a).toNat (rsqF32 a).1 ∧ (rsqF32 a).2 = .none) ∧
  (∀ a, isFinite f32 a → units f32 a < 0 → sqrtF32 a = (nan, .invalid) ∧ rsqF32 a = (nan, .invalid)) ∧
  (∀ n, rcpF32 (zero n) = (inf n, .divZero) ∧ rcpF32 (inf n) = (zero n, .none) ∧ rsqF32 (zero n) = (inf n, .divZero) ∧
    sqrtF32 (zero n) = (zero n, .none)) ∧
  sqrtF32 (inf false) = (inf false, .none) ∧ sqrtF32 (inf true) = (nan, .invalid) ∧ rsqF32 (inf false) = (0, .none) ∧
  rsqF32 (inf true) = (nan, .invalid) ∧
  (∀ n m a, isFinite f32 a → (units f32 a ≠ 0 → divF32 a (zero n) = (inf (isNeg f32 a != n), .divZero)) ∧
    (units f32 a = 0 → divF32 a (zero n) = (nan, .invalid)) ∧ divF32 (inf n) (inf m) = (nan, .invalid) ∧
    divF32 (inf n) a = (inf (n != isNeg f32 a), .none) ∧ divF32 a (inf n) = (zero (isNeg f32 a != n), .none)) ∧
  (∀ a b, (isNanOf f32 a ∨ isNanOf f32 b) → divF32 a b = (nan, ⟨(divF32 a b).2.inv, false, false, false⟩) ∧
    ((divF32 a b).2.inv = true ↔ isSignalling f32 a ∨ isSignalling f32 b)) ∧
  nanIn rcpF32 ∧ nanIn sqrtF32 ∧ nanIn rsqF32

/-- R207, R213, R221: VEXP2 of a whole number and VLOG2 of a power of two are exact; both rise with their operand; the powers of the
quarters are those of R221's table; the special inputs give the table's results. (That every other result is the nearest is not stated
here: these clauses follow from it.) -/
def PowersAndLogarithms : Prop :=
  let inf := infOf f32
  let nan := defaultNan f32
  (∀ a (n : Int), isFinite f32 a → units f32 a = n * 2 ^ 149 →
    (-126 ≤ n → n ≤ 127 → exp2F32 a = ((n + 127).toNat * 2 ^ 23, .none)) ∧ (-149 ≤ n → n < -126 → exp2F32 a = (2 ^ (n + 149).toNat, .none))) ∧
  (∀ a, isFinite f32 a → (128 * 2 ^ 149 ≤ units f32 a → exp2F32 a = (inf false, .overflow)) ∧
    (units f32 a ≤ -150 * 2 ^ 149 → exp2F32 a = (0, .underflow))) ∧
  (∀ a b, isFinite f32 a → isFinite f32 b → units f32 a ≤ units f32 b → (exp2F32 a).1 ≤ (exp2F32 b).1) ∧
  exp2F32 (inf true) = (0, .none) ∧ exp2F32 (inf false) = (inf false, .none) ∧
  exp2F32 0x3E800000 = (0x3F9837F0, .none) ∧ exp2F32 0x3F000000 = (0x3FB504F3, .none) ∧ exp2F32 0x3F400000 = (0x3FD744FD, .none) ∧
  exp2F32 0x40400000 = (0x41000000, .none) ∧
  (∀ a n : Nat, n ≤ 276 → isFinite f32 a → units f32 a = 2 ^ n → units f32 (log2F32 a).1 = ((n : Int) - 149) * 2 ^ 149 ∧
    isFinite f32 (log2F32 a).1 ∧ (log2F32 a).2 = .none) ∧
  (∀ a b, isFinite f32 a → isFinite f32 b → 0 < units f32 a → units f32 a ≤ units f32 b →
    units f32 (log2F32 a).1 ≤ units f32 (log2F32 b).1) ∧
  (∀ a, isFinite f32 a → (units f32 a = 0 → log2F32 a = (inf true, .divZero)) ∧ (units f32 a < 0 → log2F32 a = (nan, .invalid))) ∧
  log2F32 (inf true) = (nan, .invalid) ∧ log2F32 (inf false) = (inf false, .none) ∧ log2F32 0x3F800000 = (0, .none) ∧
  nanIn exp2F32 ∧ nanIn log2F32

end Sys2Proof.Rules

/-- R207, R208, R209, R213, R219, R221: what the float operations of the clusters compute, element by element. -/
def Obligations.FloatsRoundOnce : Prop :=
  Rules.SumsAndProducts ∧ Rules.FusedProducts ∧ Rules.OrderOperations ∧ Rules.QuotientsAndRoots ∧ Rules.PowersAndLogarithms

namespace Sys2Proof.Rules

/-- An operation under the guard that every word of zeros has. -/
def always : Guard := ⟨false, false, 0, 0⟩

end Sys2Proof.Rules

/-- R29, R31, R42, R54 to R73, R82: for every well-formed operation of the tables, decoding the words that encode it gives it back, with
every operand; and a slot word or a timeline command that decodes is the encoding of what it decodes to, so that no two words mean
the same and no bit of a word is dropped. -/
def Obligations.DecodeAndEncodeAgree : Prop :=
  (∀ (i : Instr) (ws : List Nat), i.wf = true → encode i = some ws → decodeWords ws = some i) ∧
  (∀ (pos w : Nat) (i : Instr), decodeSlot pos w = some i → encodeSlot i = some (pos, w) ∧ i.wf = true ∧ encode i = some [2 ^ pos, w]) ∧
  (∀ (w : Nat) (i : Instr), decodeTimeline w = some i → encodeTimeline i = some w ∧ i.wf = true ∧ encode i = some [w])

/-- Words that the spec writes out decode to the operations that they stand for (a sanity statement): a command of a timeline, a
transfer, a loop, scalar and cluster operations, ring and lane operations, a collective under a guard. -/
def Obligations.SpecWordsDecode : Prop :=
  decodeTimeline 0x10A1F400 = some (.act 5 1000 0) ∧ decodeTimeline 0x10A1F440 = some (.act 5 1000 1) ∧
  decodeSlot 0 0x00004003FFFFFFC0 = some (.branch ⟨always, .reg 0, 2 ^ 34 - 64⟩) ∧
  decodeSlot 0 0x0006000018000190 = some (.settle ⟨always, .reg 0, 400 + 24 * 2 ^ 24⟩) ∧
  decodeSlot 1 0x00008018019C0000 = some (.addI64 ⟨1, always, .reg 6, .reg 6, .loop 0, 0⟩) ∧
  decodeSlot 2 0x0008001C01204003 = some (.ld ⟨2, always, .reg 7, .reg 4, .imm 16, 3⟩) ∧
  decodeSlot 17 0x000900A180C00000 = some (.vtap ⟨17, always, .reg 40, .tap false 3, .reg 0, 0⟩) ∧
  decodeSlot 19 0x2C84896896096400 = some (.vfmaF32 ⟨19, ⟨false, false, 5, 9⟩, .reg 602, .reg 600, .reg 601, 0⟩) ∧
  decodeSlot 29 0x0000460080140000 = some (.mrd ⟨29, always, false, 3, .reg 4, 10, 0⟩) ∧
  decodeSlot 39 0x000800220000073A = some (.lsend ⟨always, .reg 8, .imm 0, 1850⟩) ∧
  decodeSlot 39 0x410C80600A000000 = some (.cbcast ⟨⟨false, true, 0, 2⟩, .reg 24, .reg 40, 0⟩) ∧
  decodeSlot 1 0 = none ∧ decodeTimeline 0 = none

/-- R30, R42, R80, R82: a step runs what it fetches: the held word of a live slot of the issuing bundle, the command at which a task's
timeline stands, an event that is due, and the tick of a new Course cycle where nothing is left of the last. A reserved timeline
command is a violation, a slot word that does not decode stops the machine (decode makes it illegal before it comes to that). -/
def Obligations.StepRunsTheDecoded : Prop :=
  (∀ (pos : Nat) (rest : List Todo) (i : Instr) (s : State), s.mason.pwrL2 = false → s.agenda = .slot pos :: rest →
    decodeSlot pos (tget (0 : Word) (s.brick s.issue.brick).seq.held pos).toNat = some i → step s = exec i { s with agenda := rest }) ∧
  (∀ (pos : Nat) (rest : List Todo) (s : State), s.mason.pwrL2 = false → s.agenda = .slot pos :: rest →
    decodeSlot pos (tget (0 : Word) (s.brick s.issue.brick).seq.held pos).toNat = none → step s = .fault .strayWord) ∧
  (∀ (ch k : Nat) (rest : List Todo) (l : Timeline) (ls : List Timeline) (i : Instr) (s : State), s.mason.pwrL2 = false →
    s.agenda = .timeline ch k :: rest → ((s.channel ch).timelines.filter fun l => l.task == k && l.running) = l :: ls →
    decodeTimeline (l.cmds.getD l.pos 0).toNat = some i →
    step s = exec i { s with agenda := rest, time := { s.time with ch := ch, task := k, index := l.pos } }) ∧
  (∀ (ch k : Nat) (rest : List Todo) (l : Timeline) (ls : List Timeline) (s : State), s.mason.pwrL2 = false →
    s.agenda = .timeline ch k :: rest → ((s.channel ch).timelines.filter fun l => l.task == k && l.running) = l :: ls →
    decodeTimeline (l.cmds.getD l.pos 0).toNat = none → (s.task k).image.timelines ≠ [] → (s.task k).tlStopped = false →
    ∃ t, step s = .next t ∧ (t.task k).tlStopped = true ∧ t.hbm = s.hbm) ∧
  (∀ (i : Instr) (rest : List Todo) (s : State), s.mason.pwrL2 = false → s.agenda = .event i :: rest →
    step s = exec i { s with agenda := rest }) ∧
  (∀ s : State, s.mason.pwrL2 = false → s.agenda = [] → step s = exec .courseCycleTick s)

/-- R74, R116, R134, R399: the package's memories keep their canonical form over every step: addresses strictly rise and no byte is listed
that an unlisted one reads as, so that equal memories are equal data. The canonical form is the model's choice of representation. -/
def Obligations.StepsKeepTheMemoriesForm : Prop :=
  ∀ s t : State, s.memoryWf → step s = .next t → t.memoryWf

/-- What reset leaves. Values that the spec's tables state: LIMIT is 4,800 W, HRHT.THRESH 4,096, every slice 16 frames long, every
round-robin pointer 31, LEVEL 7 in FTSEL and in VBCFG, every tag 0xFFFF; HSEM is free with TIE 0, no range or rank is valid, no column
has an owner, no brick runs a task, nothing is queued, core 0 of the Mason runs (R400). The model's choice, log entry 9: HBM before its
initialisation, the Yards and the second tier list nothing, and what is not listed reads as zero; they are in canonical form. -/
def Obligations.ResetLeavesTheStatedValues : Prop :=
  let s := State.reset
  s.memoryWf ∧ s.mason.cores = [0] ∧ s.hbm = [] ∧ s.yard = [] ∧ s.tier2 = [] ∧ s.mason.phase = 0 ∧ s.mason.ready = false ∧ s.mason.pwrLimit = 4800 ∧
  s.mason.pwrL1 = false ∧ s.mason.pwrL2 = false ∧ s.mason.hsemHeld = false ∧ s.mason.hsemTie = 0 ∧ s.mason.admlock = false ∧ s.hrht = 4096 ∧
  s.agenda = [] ∧ s.inputs = [] ∧ s.faq = [] ∧ s.tasks = [] ∧
  (∀ k, (s.part k).slice = 16 ∧ (s.part k).fcol = 0 ∧ (s.part k).bricks = [] ∧ (∀ e, 31 - tget 0 (s.part k).rrp e = 31) ∧
    ∀ i, (tget Range.reset (s.part k).ranges i).attr = 0) ∧
  (∀ r, tget 0 s.ranktbl r = 0) ∧ (∀ w, tget 0 s.mcwin w = 0) ∧ (∀ n, tget 0 s.mason.admitReg n = 0) ∧
  (∀ b, let x := s.brick b
    x.task = none ∧ x.running = false ∧ x.trap.trapped = false ∧ sysGet x 0x023 = 7 ∧ sysGet x 0x045 = 0xE0 ∧
      (∀ n, n ≠ 0x023 → n ≠ 0x045 → sysGet x n = 0) ∧ (∀ g, tagOf x g = 0xFFFF) ∧ x.held = [] ∧ x.flights = [])
end

