-- ==== Sys2Proof/Laws/State.lean ====
section
/-! SUPPORT. What each update of the package changes and leaves: one lemma for each field and update, and a table read after a
write. Generated from the fields of State. -/

namespace Sys2Proof.Machine

@[simp] theorem State.setBrick_tb (s : State) (b : Nat) (x : Brick) : (s.setBrick b x).tb = s.tb := rfl
@[simp] theorem State.setBrick_bricks (s : State) (b : Nat) (x : Brick) : (s.setBrick b x).bricks = tins s.bricks b x := rfl
@[simp] theorem State.setBrick_channels (s : State) (b : Nat) (x : Brick) : (s.setBrick b x).channels = s.channels := rfl
@[simp] theorem State.setBrick_parts (s : State) (b : Nat) (x : Brick) : (s.setBrick b x).parts = s.parts := rfl
@[simp] theorem State.setBrick_partsAt (s : State) (b : Nat) (x : Brick) : (s.setBrick b x).partsAt = s.partsAt := rfl
@[simp] theorem State.setBrick_regsAt (s : State) (b : Nat) (x : Brick) : (s.setBrick b x).regsAt = s.regsAt := rfl
@[simp] theorem State.setBrick_overAt (s : State) (b : Nat) (x : Brick) : (s.setBrick b x).overAt = s.overAt := rfl
@[simp] theorem State.setBrick_normsAt (s : State) (b : Nat) (x : Brick) : (s.setBrick b x).normsAt = s.normsAt := rfl
@[simp] theorem State.setBrick_tasks (s : State) (b : Nat) (x : Brick) : (s.setBrick b x).tasks = s.tasks := rfl
@[simp] theorem State.setBrick_nextTask (s : State) (b : Nat) (x : Brick) : (s.setBrick b x).nextTask = s.nextTask := rfl
@[simp] theorem State.setBrick_hbm (s : State) (b : Nat) (x : Brick) : (s.setBrick b x).hbm = s.hbm := rfl
@[simp] theorem State.setBrick_hbmUe (s : State) (b : Nat) (x : Brick) : (s.setBrick b x).hbmUe = s.hbmUe := rfl
@[simp] theorem State.setBrick_hbmCe (s : State) (b : Nat) (x : Brick) : (s.setBrick b x).hbmCe = s.hbmCe := rfl
@[simp] theorem State.setBrick_pendWrites (s : State) (b : Nat) (x : Brick) : (s.setBrick b x).pendWrites = s.pendWrites := rfl
@[simp] theorem State.setBrick_yard (s : State) (b : Nat) (x : Brick) : (s.setBrick b x).yard = s.yard := rfl
@[simp] theorem State.setBrick_yardPoison (s : State) (b : Nat) (x : Brick) : (s.setBrick b x).yardPoison = s.yardPoison := rfl
@[simp] theorem State.setBrick_yardCe (s : State) (b : Nat) (x : Brick) : (s.setBrick b x).yardCe = s.yardCe := rfl
@[simp] theorem State.setBrick_yardUe (s : State) (b : Nat) (x : Brick) : (s.setBrick b x).yardUe = s.yardUe := rfl
@[simp] theorem State.setBrick_yardRefused (s : State) (b : Nat) (x : Brick) : (s.setBrick b x).yardRefused = s.yardRefused := rfl
@[simp] theorem State.setBrick_ydcecnt (s : State) (b : Nat) (x : Brick) : (s.setBrick b x).ydcecnt = s.ydcecnt := rfl
@[simp] theorem State.setBrick_tier2 (s : State) (b : Nat) (x : Brick) : (s.setBrick b x).tier2 = s.tier2 := rfl
@[simp] theorem State.setBrick_tier2Poison (s : State) (b : Nat) (x : Brick) : (s.setBrick b x).tier2Poison = s.tier2Poison := rfl
@[simp] theorem State.setBrick_varWrites (s : State) (b : Nat) (x : Brick) : (s.setBrick b x).varWrites = s.varWrites := rfl
@[simp] theorem State.setBrick_mcwin (s : State) (b : Nat) (x : Brick) : (s.setBrick b x).mcwin = s.mcwin := rfl
@[simp] theorem State.setBrick_refown (s : State) (b : Nat) (x : Brick) : (s.setBrick b x).refown = s.refown := rfl
@[simp] theorem State.setBrick_hrht (s : State) (b : Nat) (x : Brick) : (s.setBrick b x).hrht = s.hrht := rfl
@[simp] theorem State.setBrick_cecnt (s : State) (b : Nat) (x : Brick) : (s.setBrick b x).cecnt = s.cecnt := rfl
@[simp] theorem State.setBrick_refmiss (s : State) (b : Nat) (x : Brick) : (s.setBrick b x).refmiss = s.refmiss := rfl
@[simp] theorem State.setBrick_faq (s : State) (b : Nat) (x : Brick) : (s.setBrick b x).faq = s.faq := rfl
@[simp] theorem State.setBrick_faqLost (s : State) (b : Nat) (x : Brick) : (s.setBrick b x).faqLost = s.faqLost := rfl
@[simp] theorem State.setBrick_badPages (s : State) (b : Nat) (x : Brick) : (s.setBrick b x).badPages = s.badPages := rfl
@[simp] theorem State.setBrick_bplFull (s : State) (b : Nat) (x : Brick) : (s.setBrick b x).bplFull = s.bplFull := rfl
@[simp] theorem State.setBrick_bond (s : State) (b : Nat) (x : Brick) : (s.setBrick b x).bond = s.bond := rfl
@[simp] theorem State.setBrick_rank (s : State) (b : Nat) (x : Brick) : (s.setBrick b x).rank = s.rank := rfl
@[simp] theorem State.setBrick_station (s : State) (b : Nat) (x : Brick) : (s.setBrick b x).station = s.station := rfl
@[simp] theorem State.setBrick_ranktbl (s : State) (b : Nat) (x : Brick) : (s.setBrick b x).ranktbl = s.ranktbl := rfl
@[simp] theorem State.setBrick_pathtbl (s : State) (b : Nat) (x : Brick) : (s.setBrick b x).pathtbl = s.pathtbl := rfl
@[simp] theorem State.setBrick_landing (s : State) (b : Nat) (x : Brick) : (s.setBrick b x).landing = s.landing := rfl
@[simp] theorem State.setBrick_savebase (s : State) (b : Nat) (x : Brick) : (s.setBrick b x).savebase = s.savebase := rfl
@[simp] theorem State.setBrick_mason (s : State) (b : Nat) (x : Brick) : (s.setBrick b x).mason = s.mason := rfl
@[simp] theorem State.setBrick_issue (s : State) (b : Nat) (x : Brick) : (s.setBrick b x).issue = s.issue := rfl
@[simp] theorem State.setBrick_time (s : State) (b : Nat) (x : Brick) : (s.setBrick b x).time = s.time := rfl
@[simp] theorem State.setBrick_offers (s : State) (b : Nat) (x : Brick) : (s.setBrick b x).offers = s.offers := rfl
@[simp] theorem State.setBrick_ran (s : State) (b : Nat) (x : Brick) : (s.setBrick b x).ran = s.ran := rfl
@[simp] theorem State.setBrick_before (s : State) (b : Nat) (x : Brick) : (s.setBrick b x).before = s.before := rfl
@[simp] theorem State.setBrick_agenda (s : State) (b : Nat) (x : Brick) : (s.setBrick b x).agenda = s.agenda := rfl
@[simp] theorem State.setBrick_inputs (s : State) (b : Nat) (x : Brick) : (s.setBrick b x).inputs = s.inputs := rfl
@[simp] theorem State.setBrick_out (s : State) (b : Nat) (x : Brick) : (s.setBrick b x).out = s.out := rfl
@[simp] theorem State.setBrick_reads (s : State) (b : Nat) (x : Brick) : (s.setBrick b x).reads = s.reads := rfl
@[simp] theorem State.setBrick_fresh (s : State) (b : Nat) (x : Brick) : (s.setBrick b x).fresh = s.fresh := rfl

@[simp] theorem State.onTask_tb (s : State) (t : Nat) (f : Task → Task) : (s.onTask t f).tb = s.tb := rfl
@[simp] theorem State.onTask_bricks (s : State) (t : Nat) (f : Task → Task) : (s.onTask t f).bricks = s.bricks := rfl
@[simp] theorem State.onTask_channels (s : State) (t : Nat) (f : Task → Task) : (s.onTask t f).channels = s.channels := rfl
@[simp] theorem State.onTask_parts (s : State) (t : Nat) (f : Task → Task) : (s.onTask t f).parts = s.parts := rfl
@[simp] theorem State.onTask_partsAt (s : State) (t : Nat) (f : Task → Task) : (s.onTask t f).partsAt = s.partsAt := rfl
@[simp] theorem State.onTask_regsAt (s : State) (t : Nat) (f : Task → Task) : (s.onTask t f).regsAt = s.regsAt := rfl
@[simp] theorem State.onTask_overAt (s : State) (t : Nat) (f : Task → Task) : (s.onTask t f).overAt = s.overAt := rfl
@[simp] theorem State.onTask_normsAt (s : State) (t : Nat) (f : Task → Task) : (s.onTask t f).normsAt = s.normsAt := rfl
@[simp] theorem State.onTask_tasks (s : State) (t : Nat) (f : Task → Task) : (s.onTask t f).tasks = tins s.tasks t (f (s.task t)) := rfl
@[simp] theorem State.onTask_nextTask (s : State) (t : Nat) (f : Task → Task) : (s.onTask t f).nextTask = s.nextTask := rfl
@[simp] theorem State.onTask_hbm (s : State) (t : Nat) (f : Task → Task) : (s.onTask t f).hbm = s.hbm := rfl
@[simp] theorem State.onTask_hbmUe (s : State) (t : Nat) (f : Task → Task) : (s.onTask t f).hbmUe = s.hbmUe := rfl
@[simp] theorem State.onTask_hbmCe (s : State) (t : Nat) (f : Task → Task) : (s.onTask t f).hbmCe = s.hbmCe := rfl
@[simp] theorem State.onTask_pendWrites (s : State) (t : Nat) (f : Task → Task) : (s.onTask t f).pendWrites = s.pendWrites := rfl
@[simp] theorem State.onTask_yard (s : State) (t : Nat) (f : Task → Task) : (s.onTask t f).yard = s.yard := rfl
@[simp] theorem State.onTask_yardPoison (s : State) (t : Nat) (f : Task → Task) : (s.onTask t f).yardPoison = s.yardPoison := rfl
@[simp] theorem State.onTask_yardCe (s : State) (t : Nat) (f : Task → Task) : (s.onTask t f).yardCe = s.yardCe := rfl
@[simp] theorem State.onTask_yardUe (s : State) (t : Nat) (f : Task → Task) : (s.onTask t f).yardUe = s.yardUe := rfl
@[simp] theorem State.onTask_yardRefused (s : State) (t : Nat) (f : Task → Task) : (s.onTask t f).yardRefused = s.yardRefused := rfl
@[simp] theorem State.onTask_ydcecnt (s : State) (t : Nat) (f : Task → Task) : (s.onTask t f).ydcecnt = s.ydcecnt := rfl
@[simp] theorem State.onTask_tier2 (s : State) (t : Nat) (f : Task → Task) : (s.onTask t f).tier2 = s.tier2 := rfl
@[simp] theorem State.onTask_tier2Poison (s : State) (t : Nat) (f : Task → Task) : (s.onTask t f).tier2Poison = s.tier2Poison := rfl
@[simp] theorem State.onTask_varWrites (s : State) (t : Nat) (f : Task → Task) : (s.onTask t f).varWrites = s.varWrites := rfl
@[simp] theorem State.onTask_mcwin (s : State) (t : Nat) (f : Task → Task) : (s.onTask t f).mcwin = s.mcwin := rfl
@[simp] theorem State.onTask_refown (s : State) (t : Nat) (f : Task → Task) : (s.onTask t f).refown = s.refown := rfl
@[simp] theorem State.onTask_hrht (s : State) (t : Nat) (f : Task → Task) : (s.onTask t f).hrht = s.hrht := rfl
@[simp] theorem State.onTask_cecnt (s : State) (t : Nat) (f : Task → Task) : (s.onTask t f).cecnt = s.cecnt := rfl
@[simp] theorem State.onTask_refmiss (s : State) (t : Nat) (f : Task → Task) : (s.onTask t f).refmiss = s.refmiss := rfl
@[simp] theorem State.onTask_faq (s : State) (t : Nat) (f : Task → Task) : (s.onTask t f).faq = s.faq := rfl
@[simp] theorem State.onTask_faqLost (s : State) (t : Nat) (f : Task → Task) : (s.onTask t f).faqLost = s.faqLost := rfl
@[simp] theorem State.onTask_badPages (s : State) (t : Nat) (f : Task → Task) : (s.onTask t f).badPages = s.badPages := rfl
@[simp] theorem State.onTask_bplFull (s : State) (t : Nat) (f : Task → Task) : (s.onTask t f).bplFull = s.bplFull := rfl
@[simp] theorem State.onTask_bond (s : State) (t : Nat) (f : Task → Task) : (s.onTask t f).bond = s.bond := rfl
@[simp] theorem State.onTask_rank (s : State) (t : Nat) (f : Task → Task) : (s.onTask t f).rank = s.rank := rfl
@[simp] theorem State.onTask_station (s : State) (t : Nat) (f : Task → Task) : (s.onTask t f).station = s.station := rfl
@[simp] theorem State.onTask_ranktbl (s : State) (t : Nat) (f : Task → Task) : (s.onTask t f).ranktbl = s.ranktbl := rfl
@[simp] theorem State.onTask_pathtbl (s : State) (t : Nat) (f : Task → Task) : (s.onTask t f).pathtbl = s.pathtbl := rfl
@[simp] theorem State.onTask_landing (s : State) (t : Nat) (f : Task → Task) : (s.onTask t f).landing = s.landing := rfl
@[simp] theorem State.onTask_savebase (s : State) (t : Nat) (f : Task → Task) : (s.onTask t f).savebase = s.savebase := rfl
@[simp] theorem State.onTask_mason (s : State) (t : Nat) (f : Task → Task) : (s.onTask t f).mason = s.mason := rfl
@[simp] theorem State.onTask_issue (s : State) (t : Nat) (f : Task → Task) : (s.onTask t f).issue = s.issue := rfl
@[simp] theorem State.onTask_time (s : State) (t : Nat) (f : Task → Task) : (s.onTask t f).time = s.time := rfl
@[simp] theorem State.onTask_offers (s : State) (t : Nat) (f : Task → Task) : (s.onTask t f).offers = s.offers := rfl
@[simp] theorem State.onTask_ran (s : State) (t : Nat) (f : Task → Task) : (s.onTask t f).ran = s.ran := rfl
@[simp] theorem State.onTask_before (s : State) (t : Nat) (f : Task → Task) : (s.onTask t f).before = s.before := rfl
@[simp] theorem State.onTask_agenda (s : State) (t : Nat) (f : Task → Task) : (s.onTask t f).agenda = s.agenda := rfl
@[simp] theorem State.onTask_inputs (s : State) (t : Nat) (f : Task → Task) : (s.onTask t f).inputs = s.inputs := rfl
@[simp] theorem State.onTask_out (s : State) (t : Nat) (f : Task → Task) : (s.onTask t f).out = s.out := rfl
@[simp] theorem State.onTask_reads (s : State) (t : Nat) (f : Task → Task) : (s.onTask t f).reads = s.reads := rfl
@[simp] theorem State.onTask_fresh (s : State) (t : Nat) (f : Task → Task) : (s.onTask t f).fresh = s.fresh := rfl

@[simp] theorem State.onPart_tb (s : State) (k : Nat) (f : Part → Part) : (s.onPart k f).tb = s.tb := rfl
@[simp] theorem State.onPart_bricks (s : State) (k : Nat) (f : Part → Part) : (s.onPart k f).bricks = s.bricks := rfl
@[simp] theorem State.onPart_channels (s : State) (k : Nat) (f : Part → Part) : (s.onPart k f).channels = s.channels := rfl
@[simp] theorem State.onPart_parts (s : State) (k : Nat) (f : Part → Part) : (s.onPart k f).parts = tins s.parts k (f (s.part k)) := rfl
@[simp] theorem State.onPart_partsAt (s : State) (k : Nat) (f : Part → Part) : (s.onPart k f).partsAt = s.partsAt := rfl
@[simp] theorem State.onPart_regsAt (s : State) (k : Nat) (f : Part → Part) : (s.onPart k f).regsAt = s.regsAt := rfl
@[simp] theorem State.onPart_overAt (s : State) (k : Nat) (f : Part → Part) : (s.onPart k f).overAt = s.overAt := rfl
@[simp] theorem State.onPart_normsAt (s : State) (k : Nat) (f : Part → Part) : (s.onPart k f).normsAt = s.normsAt := rfl
@[simp] theorem State.onPart_tasks (s : State) (k : Nat) (f : Part → Part) : (s.onPart k f).tasks = s.tasks := rfl
@[simp] theorem State.onPart_nextTask (s : State) (k : Nat) (f : Part → Part) : (s.onPart k f).nextTask = s.nextTask := rfl
@[simp] theorem State.onPart_hbm (s : State) (k : Nat) (f : Part → Part) : (s.onPart k f).hbm = s.hbm := rfl
@[simp] theorem State.onPart_hbmUe (s : State) (k : Nat) (f : Part → Part) : (s.onPart k f).hbmUe = s.hbmUe := rfl
@[simp] theorem State.onPart_hbmCe (s : State) (k : Nat) (f : Part → Part) : (s.onPart k f).hbmCe = s.hbmCe := rfl
@[simp] theorem State.onPart_pendWrites (s : State) (k : Nat) (f : Part → Part) : (s.onPart k f).pendWrites = s.pendWrites := rfl
@[simp] theorem State.onPart_yard (s : State) (k : Nat) (f : Part → Part) : (s.onPart k f).yard = s.yard := rfl
@[simp] theorem State.onPart_yardPoison (s : State) (k : Nat) (f : Part → Part) : (s.onPart k f).yardPoison = s.yardPoison := rfl
@[simp] theorem State.onPart_yardCe (s : State) (k : Nat) (f : Part → Part) : (s.onPart k f).yardCe = s.yardCe := rfl
@[simp] theorem State.onPart_yardUe (s : State) (k : Nat) (f : Part → Part) : (s.onPart k f).yardUe = s.yardUe := rfl
@[simp] theorem State.onPart_yardRefused (s : State) (k : Nat) (f : Part → Part) : (s.onPart k f).yardRefused = s.yardRefused := rfl
@[simp] theorem State.onPart_ydcecnt (s : State) (k : Nat) (f : Part → Part) : (s.onPart k f).ydcecnt = s.ydcecnt := rfl
@[simp] theorem State.onPart_tier2 (s : State) (k : Nat) (f : Part → Part) : (s.onPart k f).tier2 = s.tier2 := rfl
@[simp] theorem State.onPart_tier2Poison (s : State) (k : Nat) (f : Part → Part) : (s.onPart k f).tier2Poison = s.tier2Poison := rfl
@[simp] theorem State.onPart_varWrites (s : State) (k : Nat) (f : Part → Part) : (s.onPart k f).varWrites = s.varWrites := rfl
@[simp] theorem State.onPart_mcwin (s : State) (k : Nat) (f : Part → Part) : (s.onPart k f).mcwin = s.mcwin := rfl
@[simp] theorem State.onPart_refown (s : State) (k : Nat) (f : Part → Part) : (s.onPart k f).refown = s.refown := rfl
@[simp] theorem State.onPart_hrht (s : State) (k : Nat) (f : Part → Part) : (s.onPart k f).hrht = s.hrht := rfl
@[simp] theorem State.onPart_cecnt (s : State) (k : Nat) (f : Part → Part) : (s.onPart k f).cecnt = s.cecnt := rfl
@[simp] theorem State.onPart_refmiss (s : State) (k : Nat) (f : Part → Part) : (s.onPart k f).refmiss = s.refmiss := rfl
@[simp] theorem State.onPart_faq (s : State) (k : Nat) (f : Part → Part) : (s.onPart k f).faq = s.faq := rfl
@[simp] theorem State.onPart_faqLost (s : State) (k : Nat) (f : Part → Part) : (s.onPart k f).faqLost = s.faqLost := rfl
@[simp] theorem State.onPart_badPages (s : State) (k : Nat) (f : Part → Part) : (s.onPart k f).badPages = s.badPages := rfl
@[simp] theorem State.onPart_bplFull (s : State) (k : Nat) (f : Part → Part) : (s.onPart k f).bplFull = s.bplFull := rfl
@[simp] theorem State.onPart_bond (s : State) (k : Nat) (f : Part → Part) : (s.onPart k f).bond = s.bond := rfl
@[simp] theorem State.onPart_rank (s : State) (k : Nat) (f : Part → Part) : (s.onPart k f).rank = s.rank := rfl
@[simp] theorem State.onPart_station (s : State) (k : Nat) (f : Part → Part) : (s.onPart k f).station = s.station := rfl
@[simp] theorem State.onPart_ranktbl (s : State) (k : Nat) (f : Part → Part) : (s.onPart k f).ranktbl = s.ranktbl := rfl
@[simp] theorem State.onPart_pathtbl (s : State) (k : Nat) (f : Part → Part) : (s.onPart k f).pathtbl = s.pathtbl := rfl
@[simp] theorem State.onPart_landing (s : State) (k : Nat) (f : Part → Part) : (s.onPart k f).landing = s.landing := rfl
@[simp] theorem State.onPart_savebase (s : State) (k : Nat) (f : Part → Part) : (s.onPart k f).savebase = s.savebase := rfl
@[simp] theorem State.onPart_mason (s : State) (k : Nat) (f : Part → Part) : (s.onPart k f).mason = s.mason := rfl
@[simp] theorem State.onPart_issue (s : State) (k : Nat) (f : Part → Part) : (s.onPart k f).issue = s.issue := rfl
@[simp] theorem State.onPart_time (s : State) (k : Nat) (f : Part → Part) : (s.onPart k f).time = s.time := rfl
@[simp] theorem State.onPart_offers (s : State) (k : Nat) (f : Part → Part) : (s.onPart k f).offers = s.offers := rfl
@[simp] theorem State.onPart_ran (s : State) (k : Nat) (f : Part → Part) : (s.onPart k f).ran = s.ran := rfl
@[simp] theorem State.onPart_before (s : State) (k : Nat) (f : Part → Part) : (s.onPart k f).before = s.before := rfl
@[simp] theorem State.onPart_agenda (s : State) (k : Nat) (f : Part → Part) : (s.onPart k f).agenda = s.agenda := rfl
@[simp] theorem State.onPart_inputs (s : State) (k : Nat) (f : Part → Part) : (s.onPart k f).inputs = s.inputs := rfl
@[simp] theorem State.onPart_out (s : State) (k : Nat) (f : Part → Part) : (s.onPart k f).out = s.out := rfl
@[simp] theorem State.onPart_reads (s : State) (k : Nat) (f : Part → Part) : (s.onPart k f).reads = s.reads := rfl
@[simp] theorem State.onPart_fresh (s : State) (k : Nat) (f : Part → Part) : (s.onPart k f).fresh = s.fresh := rfl

@[simp] theorem State.onChannel_tb (s : State) (k : Nat) (f : Channel → Channel) : (s.onChannel k f).tb = s.tb := rfl
@[simp] theorem State.onChannel_bricks (s : State) (k : Nat) (f : Channel → Channel) : (s.onChannel k f).bricks = s.bricks := rfl
@[simp] theorem State.onChannel_channels (s : State) (k : Nat) (f : Channel → Channel) : (s.onChannel k f).channels = tins s.channels k (f (s.channel k)) := rfl
@[simp] theorem State.onChannel_parts (s : State) (k : Nat) (f : Channel → Channel) : (s.onChannel k f).parts = s.parts := rfl
@[simp] theorem State.onChannel_partsAt (s : State) (k : Nat) (f : Channel → Channel) : (s.onChannel k f).partsAt = s.partsAt := rfl
@[simp] theorem State.onChannel_regsAt (s : State) (k : Nat) (f : Channel → Channel) : (s.onChannel k f).regsAt = s.regsAt := rfl
@[simp] theorem State.onChannel_overAt (s : State) (k : Nat) (f : Channel → Channel) : (s.onChannel k f).overAt = s.overAt := rfl
@[simp] theorem State.onChannel_normsAt (s : State) (k : Nat) (f : Channel → Channel) : (s.onChannel k f).normsAt = s.normsAt := rfl
@[simp] theorem State.onChannel_tasks (s : State) (k : Nat) (f : Channel → Channel) : (s.onChannel k f).tasks = s.tasks := rfl
@[simp] theorem State.onChannel_nextTask (s : State) (k : Nat) (f : Channel → Channel) : (s.onChannel k f).nextTask = s.nextTask := rfl
@[simp] theorem State.onChannel_hbm (s : State) (k : Nat) (f : Channel → Channel) : (s.onChannel k f).hbm = s.hbm := rfl
@[simp] theorem State.onChannel_hbmUe (s : State) (k : Nat) (f : Channel → Channel) : (s.onChannel k f).hbmUe = s.hbmUe := rfl
@[simp] theorem State.onChannel_hbmCe (s : State) (k : Nat) (f : Channel → Channel) : (s.onChannel k f).hbmCe = s.hbmCe := rfl
@[simp] theorem State.onChannel_pendWrites (s : State) (k : Nat) (f : Channel → Channel) : (s.onChannel k f).pendWrites = s.pendWrites := rfl
@[simp] theorem State.onChannel_yard (s : State) (k : Nat) (f : Channel → Channel) : (s.onChannel k f).yard = s.yard := rfl
@[simp] theorem State.onChannel_yardPoison (s : State) (k : Nat) (f : Channel → Channel) : (s.onChannel k f).yardPoison = s.yardPoison := rfl
@[simp] theorem State.onChannel_yardCe (s : State) (k : Nat) (f : Channel → Channel) : (s.onChannel k f).yardCe = s.yardCe := rfl
@[simp] theorem State.onChannel_yardUe (s : State) (k : Nat) (f : Channel → Channel) : (s.onChannel k f).yardUe = s.yardUe := rfl
@[simp] theorem State.onChannel_yardRefused (s : State) (k : Nat) (f : Channel → Channel) : (s.onChannel k f).yardRefused = s.yardRefused := rfl
@[simp] theorem State.onChannel_ydcecnt (s : State) (k : Nat) (f : Channel → Channel) : (s.onChannel k f).ydcecnt = s.ydcecnt := rfl
@[simp] theorem State.onChannel_tier2 (s : State) (k : Nat) (f : Channel → Channel) : (s.onChannel k f).tier2 = s.tier2 := rfl
@[simp] theorem State.onChannel_tier2Poison (s : State) (k : Nat) (f : Channel → Channel) : (s.onChannel k f).tier2Poison = s.tier2Poison := rfl
@[simp] theorem State.onChannel_varWrites (s : State) (k : Nat) (f : Channel → Channel) : (s.onChannel k f).varWrites = s.varWrites := rfl
@[simp] theorem State.onChannel_mcwin (s : State) (k : Nat) (f : Channel → Channel) : (s.onChannel k f).mcwin = s.mcwin := rfl
@[simp] theorem State.onChannel_refown (s : State) (k : Nat) (f : Channel → Channel) : (s.onChannel k f).refown = s.refown := rfl
@[simp] theorem State.onChannel_hrht (s : State) (k : Nat) (f : Channel → Channel) : (s.onChannel k f).hrht = s.hrht := rfl
@[simp] theorem State.onChannel_cecnt (s : State) (k : Nat) (f : Channel → Channel) : (s.onChannel k f).cecnt = s.cecnt := rfl
@[simp] theorem State.onChannel_refmiss (s : State) (k : Nat) (f : Channel → Channel) : (s.onChannel k f).refmiss = s.refmiss := rfl
@[simp] theorem State.onChannel_faq (s : State) (k : Nat) (f : Channel → Channel) : (s.onChannel k f).faq = s.faq := rfl
@[simp] theorem State.onChannel_faqLost (s : State) (k : Nat) (f : Channel → Channel) : (s.onChannel k f).faqLost = s.faqLost := rfl
@[simp] theorem State.onChannel_badPages (s : State) (k : Nat) (f : Channel → Channel) : (s.onChannel k f).badPages = s.badPages := rfl
@[simp] theorem State.onChannel_bplFull (s : State) (k : Nat) (f : Channel → Channel) : (s.onChannel k f).bplFull = s.bplFull := rfl
@[simp] theorem State.onChannel_bond (s : State) (k : Nat) (f : Channel → Channel) : (s.onChannel k f).bond = s.bond := rfl
@[simp] theorem State.onChannel_rank (s : State) (k : Nat) (f : Channel → Channel) : (s.onChannel k f).rank = s.rank := rfl
@[simp] theorem State.onChannel_station (s : State) (k : Nat) (f : Channel → Channel) : (s.onChannel k f).station = s.station := rfl
@[simp] theorem State.onChannel_ranktbl (s : State) (k : Nat) (f : Channel → Channel) : (s.onChannel k f).ranktbl = s.ranktbl := rfl
@[simp] theorem State.onChannel_pathtbl (s : State) (k : Nat) (f : Channel → Channel) : (s.onChannel k f).pathtbl = s.pathtbl := rfl
@[simp] theorem State.onChannel_landing (s : State) (k : Nat) (f : Channel → Channel) : (s.onChannel k f).landing = s.landing := rfl
@[simp] theorem State.onChannel_savebase (s : State) (k : Nat) (f : Channel → Channel) : (s.onChannel k f).savebase = s.savebase := rfl
@[simp] theorem State.onChannel_mason (s : State) (k : Nat) (f : Channel → Channel) : (s.onChannel k f).mason = s.mason := rfl
@[simp] theorem State.onChannel_issue (s : State) (k : Nat) (f : Channel → Channel) : (s.onChannel k f).issue = s.issue := rfl
@[simp] theorem State.onChannel_time (s : State) (k : Nat) (f : Channel → Channel) : (s.onChannel k f).time = s.time := rfl
@[simp] theorem State.onChannel_offers (s : State) (k : Nat) (f : Channel → Channel) : (s.onChannel k f).offers = s.offers := rfl
@[simp] theorem State.onChannel_ran (s : State) (k : Nat) (f : Channel → Channel) : (s.onChannel k f).ran = s.ran := rfl
@[simp] theorem State.onChannel_before (s : State) (k : Nat) (f : Channel → Channel) : (s.onChannel k f).before = s.before := rfl
@[simp] theorem State.onChannel_agenda (s : State) (k : Nat) (f : Channel → Channel) : (s.onChannel k f).agenda = s.agenda := rfl
@[simp] theorem State.onChannel_inputs (s : State) (k : Nat) (f : Channel → Channel) : (s.onChannel k f).inputs = s.inputs := rfl
@[simp] theorem State.onChannel_out (s : State) (k : Nat) (f : Channel → Channel) : (s.onChannel k f).out = s.out := rfl
@[simp] theorem State.onChannel_reads (s : State) (k : Nat) (f : Channel → Channel) : (s.onChannel k f).reads = s.reads := rfl
@[simp] theorem State.onChannel_fresh (s : State) (k : Nat) (f : Channel → Channel) : (s.onChannel k f).fresh = s.fresh := rfl

@[simp] theorem State.emit_tb (s : State) (o : Out) : (s.emit o).tb = s.tb := rfl
@[simp] theorem State.emit_bricks (s : State) (o : Out) : (s.emit o).bricks = s.bricks := rfl
@[simp] theorem State.emit_channels (s : State) (o : Out) : (s.emit o).channels = s.channels := rfl
@[simp] theorem State.emit_parts (s : State) (o : Out) : (s.emit o).parts = s.parts := rfl
@[simp] theorem State.emit_partsAt (s : State) (o : Out) : (s.emit o).partsAt = s.partsAt := rfl
@[simp] theorem State.emit_regsAt (s : State) (o : Out) : (s.emit o).regsAt = s.regsAt := rfl
@[simp] theorem State.emit_overAt (s : State) (o : Out) : (s.emit o).overAt = s.overAt := rfl
@[simp] theorem State.emit_normsAt (s : State) (o : Out) : (s.emit o).normsAt = s.normsAt := rfl
@[simp] theorem State.emit_tasks (s : State) (o : Out) : (s.emit o).tasks = s.tasks := rfl
@[simp] theorem State.emit_nextTask (s : State) (o : Out) : (s.emit o).nextTask = s.nextTask := rfl
@[simp] theorem State.emit_hbm (s : State) (o : Out) : (s.emit o).hbm = s.hbm := rfl
@[simp] theorem State.emit_hbmUe (s : State) (o : Out) : (s.emit o).hbmUe = s.hbmUe := rfl
@[simp] theorem State.emit_hbmCe (s : State) (o : Out) : (s.emit o).hbmCe = s.hbmCe := rfl
@[simp] theorem State.emit_pendWrites (s : State) (o : Out) : (s.emit o).pendWrites = s.pendWrites := rfl
@[simp] theorem State.emit_yard (s : State) (o : Out) : (s.emit o).yard = s.yard := rfl
@[simp] theorem State.emit_yardPoison (s : State) (o : Out) : (s.emit o).yardPoison = s.yardPoison := rfl
@[simp] theorem State.emit_yardCe (s : State) (o : Out) : (s.emit o).yardCe = s.yardCe := rfl
@[simp] theorem State.emit_yardUe (s : State) (o : Out) : (s.emit o).yardUe = s.yardUe := rfl
@[simp] theorem State.emit_yardRefused (s : State) (o : Out) : (s.emit o).yardRefused = s.yardRefused := rfl
@[simp] theorem State.emit_ydcecnt (s : State) (o : Out) : (s.emit o).ydcecnt = s.ydcecnt := rfl
@[simp] theorem State.emit_tier2 (s : State) (o : Out) : (s.emit o).tier2 = s.tier2 := rfl
@[simp] theorem State.emit_tier2Poison (s : State) (o : Out) : (s.emit o).tier2Poison = s.tier2Poison := rfl
@[simp] theorem State.emit_varWrites (s : State) (o : Out) : (s.emit o).varWrites = s.varWrites := rfl
@[simp] theorem State.emit_mcwin (s : State) (o : Out) : (s.emit o).mcwin = s.mcwin := rfl
@[simp] theorem State.emit_refown (s : State) (o : Out) : (s.emit o).refown = s.refown := rfl
@[simp] theorem State.emit_hrht (s : State) (o : Out) : (s.emit o).hrht = s.hrht := rfl
@[simp] theorem State.emit_cecnt (s : State) (o : Out) : (s.emit o).cecnt = s.cecnt := rfl
@[simp] theorem State.emit_refmiss (s : State) (o : Out) : (s.emit o).refmiss = s.refmiss := rfl
@[simp] theorem State.emit_faq (s : State) (o : Out) : (s.emit o).faq = s.faq := rfl
@[simp] theorem State.emit_faqLost (s : State) (o : Out) : (s.emit o).faqLost = s.faqLost := rfl
@[simp] theorem State.emit_badPages (s : State) (o : Out) : (s.emit o).badPages = s.badPages := rfl
@[simp] theorem State.emit_bplFull (s : State) (o : Out) : (s.emit o).bplFull = s.bplFull := rfl
@[simp] theorem State.emit_bond (s : State) (o : Out) : (s.emit o).bond = s.bond := rfl
@[simp] theorem State.emit_rank (s : State) (o : Out) : (s.emit o).rank = s.rank := rfl
@[simp] theorem State.emit_station (s : State) (o : Out) : (s.emit o).station = s.station := rfl
@[simp] theorem State.emit_ranktbl (s : State) (o : Out) : (s.emit o).ranktbl = s.ranktbl := rfl
@[simp] theorem State.emit_pathtbl (s : State) (o : Out) : (s.emit o).pathtbl = s.pathtbl := rfl
@[simp] theorem State.emit_landing (s : State) (o : Out) : (s.emit o).landing = s.landing := rfl
@[simp] theorem State.emit_savebase (s : State) (o : Out) : (s.emit o).savebase = s.savebase := rfl
@[simp] theorem State.emit_mason (s : State) (o : Out) : (s.emit o).mason = s.mason := rfl
@[simp] theorem State.emit_issue (s : State) (o : Out) : (s.emit o).issue = s.issue := rfl
@[simp] theorem State.emit_time (s : State) (o : Out) : (s.emit o).time = s.time := rfl
@[simp] theorem State.emit_offers (s : State) (o : Out) : (s.emit o).offers = s.offers := rfl
@[simp] theorem State.emit_ran (s : State) (o : Out) : (s.emit o).ran = s.ran := rfl
@[simp] theorem State.emit_before (s : State) (o : Out) : (s.emit o).before = s.before := rfl
@[simp] theorem State.emit_agenda (s : State) (o : Out) : (s.emit o).agenda = s.agenda := rfl
@[simp] theorem State.emit_inputs (s : State) (o : Out) : (s.emit o).inputs = s.inputs := rfl
@[simp] theorem State.emit_out (s : State) (o : Out) : (s.emit o).out = s.out ++ [o] := rfl
@[simp] theorem State.emit_reads (s : State) (o : Out) : (s.emit o).reads = s.reads := rfl
@[simp] theorem State.emit_fresh (s : State) (o : Out) : (s.emit o).fresh = s.fresh := rfl

@[simp] theorem State.push_tb (s : State) (ts : List Todo) : (s.push ts).tb = s.tb := rfl
@[simp] theorem State.push_bricks (s : State) (ts : List Todo) : (s.push ts).bricks = s.bricks := rfl
@[simp] theorem State.push_channels (s : State) (ts : List Todo) : (s.push ts).channels = s.channels := rfl
@[simp] theorem State.push_parts (s : State) (ts : List Todo) : (s.push ts).parts = s.parts := rfl
@[simp] theorem State.push_partsAt (s : State) (ts : List Todo) : (s.push ts).partsAt = s.partsAt := rfl
@[simp] theorem State.push_regsAt (s : State) (ts : List Todo) : (s.push ts).regsAt = s.regsAt := rfl
@[simp] theorem State.push_overAt (s : State) (ts : List Todo) : (s.push ts).overAt = s.overAt := rfl
@[simp] theorem State.push_normsAt (s : State) (ts : List Todo) : (s.push ts).normsAt = s.normsAt := rfl
@[simp] theorem State.push_tasks (s : State) (ts : List Todo) : (s.push ts).tasks = s.tasks := rfl
@[simp] theorem State.push_nextTask (s : State) (ts : List Todo) : (s.push ts).nextTask = s.nextTask := rfl
@[simp] theorem State.push_hbm (s : State) (ts : List Todo) : (s.push ts).hbm = s.hbm := rfl
@[simp] theorem State.push_hbmUe (s : State) (ts : List Todo) : (s.push ts).hbmUe = s.hbmUe := rfl
@[simp] theorem State.push_hbmCe (s : State) (ts : List Todo) : (s.push ts).hbmCe = s.hbmCe := rfl
@[simp] theorem State.push_pendWrites (s : State) (ts : List Todo) : (s.push ts).pendWrites = s.pendWrites := rfl
@[simp] theorem State.push_yard (s : State) (ts : List Todo) : (s.push ts).yard = s.yard := rfl
@[simp] theorem State.push_yardPoison (s : State) (ts : List Todo) : (s.push ts).yardPoison = s.yardPoison := rfl
@[simp] theorem State.push_yardCe (s : State) (ts : List Todo) : (s.push ts).yardCe = s.yardCe := rfl
@[simp] theorem State.push_yardUe (s : State) (ts : List Todo) : (s.push ts).yardUe = s.yardUe := rfl
@[simp] theorem State.push_yardRefused (s : State) (ts : List Todo) : (s.push ts).yardRefused = s.yardRefused := rfl
@[simp] theorem State.push_ydcecnt (s : State) (ts : List Todo) : (s.push ts).ydcecnt = s.ydcecnt := rfl
@[simp] theorem State.push_tier2 (s : State) (ts : List Todo) : (s.push ts).tier2 = s.tier2 := rfl
@[simp] theorem State.push_tier2Poison (s : State) (ts : List Todo) : (s.push ts).tier2Poison = s.tier2Poison := rfl
@[simp] theorem State.push_varWrites (s : State) (ts : List Todo) : (s.push ts).varWrites = s.varWrites := rfl
@[simp] theorem State.push_mcwin (s : State) (ts : List Todo) : (s.push ts).mcwin = s.mcwin := rfl
@[simp] theorem State.push_refown (s : State) (ts : List Todo) : (s.push ts).refown = s.refown := rfl
@[simp] theorem State.push_hrht (s : State) (ts : List Todo) : (s.push ts).hrht = s.hrht := rfl
@[simp] theorem State.push_cecnt (s : State) (ts : List Todo) : (s.push ts).cecnt = s.cecnt := rfl
@[simp] theorem State.push_refmiss (s : State) (ts : List Todo) : (s.push ts).refmiss = s.refmiss := rfl
@[simp] theorem State.push_faq (s : State) (ts : List Todo) : (s.push ts).faq = s.faq := rfl
@[simp] theorem State.push_faqLost (s : State) (ts : List Todo) : (s.push ts).faqLost = s.faqLost := rfl
@[simp] theorem State.push_badPages (s : State) (ts : List Todo) : (s.push ts).badPages = s.badPages := rfl
@[simp] theorem State.push_bplFull (s : State) (ts : List Todo) : (s.push ts).bplFull = s.bplFull := rfl
@[simp] theorem State.push_bond (s : State) (ts : List Todo) : (s.push ts).bond = s.bond := rfl
@[simp] theorem State.push_rank (s : State) (ts : List Todo) : (s.push ts).rank = s.rank := rfl
@[simp] theorem State.push_station (s : State) (ts : List Todo) : (s.push ts).station = s.station := rfl
@[simp] theorem State.push_ranktbl (s : State) (ts : List Todo) : (s.push ts).ranktbl = s.ranktbl := rfl
@[simp] theorem State.push_pathtbl (s : State) (ts : List Todo) : (s.push ts).pathtbl = s.pathtbl := rfl
@[simp] theorem State.push_landing (s : State) (ts : List Todo) : (s.push ts).landing = s.landing := rfl
@[simp] theorem State.push_savebase (s : State) (ts : List Todo) : (s.push ts).savebase = s.savebase := rfl
@[simp] theorem State.push_mason (s : State) (ts : List Todo) : (s.push ts).mason = s.mason := rfl
@[simp] theorem State.push_issue (s : State) (ts : List Todo) : (s.push ts).issue = s.issue := rfl
@[simp] theorem State.push_time (s : State) (ts : List Todo) : (s.push ts).time = s.time := rfl
@[simp] theorem State.push_offers (s : State) (ts : List Todo) : (s.push ts).offers = s.offers := rfl
@[simp] theorem State.push_ran (s : State) (ts : List Todo) : (s.push ts).ran = s.ran := rfl
@[simp] theorem State.push_before (s : State) (ts : List Todo) : (s.push ts).before = s.before := rfl
@[simp] theorem State.push_agenda (s : State) (ts : List Todo) : (s.push ts).agenda = ts ++ s.agenda := rfl
@[simp] theorem State.push_inputs (s : State) (ts : List Todo) : (s.push ts).inputs = s.inputs := rfl
@[simp] theorem State.push_out (s : State) (ts : List Todo) : (s.push ts).out = s.out := rfl
@[simp] theorem State.push_reads (s : State) (ts : List Todo) : (s.push ts).reads = s.reads := rfl
@[simp] theorem State.push_fresh (s : State) (ts : List Todo) : (s.push ts).fresh = s.fresh := rfl

@[simp] theorem State.foundAt_tb (s : State) (code slot : Nat) (r : List (Nat × Word)) : (s.foundAt code slot r).tb = s.tb := rfl
@[simp] theorem State.foundAt_bricks (s : State) (code slot : Nat) (r : List (Nat × Word)) : (s.foundAt code slot r).bricks = s.bricks := rfl
@[simp] theorem State.foundAt_channels (s : State) (code slot : Nat) (r : List (Nat × Word)) : (s.foundAt code slot r).channels = s.channels := rfl
@[simp] theorem State.foundAt_parts (s : State) (code slot : Nat) (r : List (Nat × Word)) : (s.foundAt code slot r).parts = s.parts := rfl
@[simp] theorem State.foundAt_partsAt (s : State) (code slot : Nat) (r : List (Nat × Word)) : (s.foundAt code slot r).partsAt = s.partsAt := rfl
@[simp] theorem State.foundAt_regsAt (s : State) (code slot : Nat) (r : List (Nat × Word)) : (s.foundAt code slot r).regsAt = s.regsAt := rfl
@[simp] theorem State.foundAt_overAt (s : State) (code slot : Nat) (r : List (Nat × Word)) : (s.foundAt code slot r).overAt = s.overAt := rfl
@[simp] theorem State.foundAt_normsAt (s : State) (code slot : Nat) (r : List (Nat × Word)) : (s.foundAt code slot r).normsAt = s.normsAt := rfl
@[simp] theorem State.foundAt_tasks (s : State) (code slot : Nat) (r : List (Nat × Word)) : (s.foundAt code slot r).tasks = s.tasks := rfl
@[simp] theorem State.foundAt_nextTask (s : State) (code slot : Nat) (r : List (Nat × Word)) : (s.foundAt code slot r).nextTask = s.nextTask := rfl
@[simp] theorem State.foundAt_hbm (s : State) (code slot : Nat) (r : List (Nat × Word)) : (s.foundAt code slot r).hbm = s.hbm := rfl
@[simp] theorem State.foundAt_hbmUe (s : State) (code slot : Nat) (r : List (Nat × Word)) : (s.foundAt code slot r).hbmUe = s.hbmUe := rfl
@[simp] theorem State.foundAt_hbmCe (s : State) (code slot : Nat) (r : List (Nat × Word)) : (s.foundAt code slot r).hbmCe = s.hbmCe := rfl
@[simp] theorem State.foundAt_pendWrites (s : State) (code slot : Nat) (r : List (Nat × Word)) : (s.foundAt code slot r).pendWrites = s.pendWrites := rfl
@[simp] theorem State.foundAt_yard (s : State) (code slot : Nat) (r : List (Nat × Word)) : (s.foundAt code slot r).yard = s.yard := rfl
@[simp] theorem State.foundAt_yardPoison (s : State) (code slot : Nat) (r : List (Nat × Word)) : (s.foundAt code slot r).yardPoison = s.yardPoison := rfl
@[simp] theorem State.foundAt_yardCe (s : State) (code slot : Nat) (r : List (Nat × Word)) : (s.foundAt code slot r).yardCe = s.yardCe := rfl
@[simp] theorem State.foundAt_yardUe (s : State) (code slot : Nat) (r : List (Nat × Word)) : (s.foundAt code slot r).yardUe = s.yardUe := rfl
@[simp] theorem State.foundAt_yardRefused (s : State) (code slot : Nat) (r : List (Nat × Word)) : (s.foundAt code slot r).yardRefused = s.yardRefused := rfl
@[simp] theorem State.foundAt_ydcecnt (s : State) (code slot : Nat) (r : List (Nat × Word)) : (s.foundAt code slot r).ydcecnt = s.ydcecnt := rfl
@[simp] theorem State.foundAt_tier2 (s : State) (code slot : Nat) (r : List (Nat × Word)) : (s.foundAt code slot r).tier2 = s.tier2 := rfl
@[simp] theorem State.foundAt_tier2Poison (s : State) (code slot : Nat) (r : List (Nat × Word)) : (s.foundAt code slot r).tier2Poison = s.tier2Poison := rfl
@[simp] theorem State.foundAt_varWrites (s : State) (code slot : Nat) (r : List (Nat × Word)) : (s.foundAt code slot r).varWrites = s.varWrites := rfl
@[simp] theorem State.foundAt_mcwin (s : State) (code slot : Nat) (r : List (Nat × Word)) : (s.foundAt code slot r).mcwin = s.mcwin := rfl
@[simp] theorem State.foundAt_refown (s : State) (code slot : Nat) (r : List (Nat × Word)) : (s.foundAt code slot r).refown = s.refown := rfl
@[simp] theorem State.foundAt_hrht (s : State) (code slot : Nat) (r : List (Nat × Word)) : (s.foundAt code slot r).hrht = s.hrht := rfl
@[simp] theorem State.foundAt_cecnt (s : State) (code slot : Nat) (r : List (Nat × Word)) : (s.foundAt code slot r).cecnt = s.cecnt := rfl
@[simp] theorem State.foundAt_refmiss (s : State) (code slot : Nat) (r : List (Nat × Word)) : (s.foundAt code slot r).refmiss = s.refmiss := rfl
@[simp] theorem State.foundAt_faq (s : State) (code slot : Nat) (r : List (Nat × Word)) : (s.foundAt code slot r).faq = s.faq := rfl
@[simp] theorem State.foundAt_faqLost (s : State) (code slot : Nat) (r : List (Nat × Word)) : (s.foundAt code slot r).faqLost = s.faqLost := rfl
@[simp] theorem State.foundAt_badPages (s : State) (code slot : Nat) (r : List (Nat × Word)) : (s.foundAt code slot r).badPages = s.badPages := rfl
@[simp] theorem State.foundAt_bplFull (s : State) (code slot : Nat) (r : List (Nat × Word)) : (s.foundAt code slot r).bplFull = s.bplFull := rfl
@[simp] theorem State.foundAt_bond (s : State) (code slot : Nat) (r : List (Nat × Word)) : (s.foundAt code slot r).bond = s.bond := rfl
@[simp] theorem State.foundAt_rank (s : State) (code slot : Nat) (r : List (Nat × Word)) : (s.foundAt code slot r).rank = s.rank := rfl
@[simp] theorem State.foundAt_station (s : State) (code slot : Nat) (r : List (Nat × Word)) : (s.foundAt code slot r).station = s.station := rfl
@[simp] theorem State.foundAt_ranktbl (s : State) (code slot : Nat) (r : List (Nat × Word)) : (s.foundAt code slot r).ranktbl = s.ranktbl := rfl
@[simp] theorem State.foundAt_pathtbl (s : State) (code slot : Nat) (r : List (Nat × Word)) : (s.foundAt code slot r).pathtbl = s.pathtbl := rfl
@[simp] theorem State.foundAt_landing (s : State) (code slot : Nat) (r : List (Nat × Word)) : (s.foundAt code slot r).landing = s.landing := rfl
@[simp] theorem State.foundAt_savebase (s : State) (code slot : Nat) (r : List (Nat × Word)) : (s.foundAt code slot r).savebase = s.savebase := rfl
@[simp] theorem State.foundAt_mason (s : State) (code slot : Nat) (r : List (Nat × Word)) : (s.foundAt code slot r).mason = s.mason := rfl
@[simp] theorem State.foundAt_issue (s : State) (code slot : Nat) (r : List (Nat × Word)) : (s.foundAt code slot r).issue = { s.issue with found := s.issue.found ++ [⟨code, slot, r⟩] } := rfl
@[simp] theorem State.foundAt_time (s : State) (code slot : Nat) (r : List (Nat × Word)) : (s.foundAt code slot r).time = s.time := rfl
@[simp] theorem State.foundAt_offers (s : State) (code slot : Nat) (r : List (Nat × Word)) : (s.foundAt code slot r).offers = s.offers := rfl
@[simp] theorem State.foundAt_ran (s : State) (code slot : Nat) (r : List (Nat × Word)) : (s.foundAt code slot r).ran = s.ran := rfl
@[simp] theorem State.foundAt_before (s : State) (code slot : Nat) (r : List (Nat × Word)) : (s.foundAt code slot r).before = s.before := rfl
@[simp] theorem State.foundAt_agenda (s : State) (code slot : Nat) (r : List (Nat × Word)) : (s.foundAt code slot r).agenda = s.agenda := rfl
@[simp] theorem State.foundAt_inputs (s : State) (code slot : Nat) (r : List (Nat × Word)) : (s.foundAt code slot r).inputs = s.inputs := rfl
@[simp] theorem State.foundAt_out (s : State) (code slot : Nat) (r : List (Nat × Word)) : (s.foundAt code slot r).out = s.out := rfl
@[simp] theorem State.foundAt_reads (s : State) (code slot : Nat) (r : List (Nat × Word)) : (s.foundAt code slot r).reads = s.reads := rfl
@[simp] theorem State.foundAt_fresh (s : State) (code slot : Nat) (r : List (Nat × Word)) : (s.foundAt code slot r).fresh = s.fresh := rfl

end Sys2Proof.Machine
end

