-- ==== Sys2Proof/Laws/Tables.lean ====
section
/-! SUPPORT. Tables and memories: a read after a write, places left alone, and the canonical form, which every write keeps. -/

namespace Sys2Proof.Machine

variable {α : Type}

theorem tfind_tins_same (t : Table α) (k : Nat) (v : α) : tfind (tins t k v) k = some v := by
  induction t with
  | nil => simp [tins, tfind]
  | cons p t ih =>
    obtain ⟨k', v'⟩ := p
    simp only [tins]
    split
    · simp [tfind]
    · split
      · simp [tfind]
      · simp [tfind, *]

theorem tfind_tins_other (t : Table α) {j k : Nat} (v : α) (h : j ≠ k) : tfind (tins t k v) j = tfind t j := by
  induction t with
  | nil => simp [tins, tfind, h]
  | cons p t ih =>
    obtain ⟨k', v'⟩ := p
    simp only [tins]
    split
    · simp [tfind, h]
    · split
      · subst_vars; simp [tfind, h]
      · simp only [tfind, ih]

theorem tfind_tdel_same (t : Table α) (k : Nat) : tfind (tdel t k) k = none := by
  induction t with
  | nil => rfl
  | cons p t ih =>
    obtain ⟨k', v'⟩ := p
    by_cases h : k' = k
    · simpa [tdel, h] using ih
    · have h' : k ≠ k' := fun e => h e.symm
      simpa [tdel, h, tfind, h'] using ih

theorem tfind_tdel_other (t : Table α) {j k : Nat} (h : j ≠ k) : tfind (tdel t k) j = tfind t j := by
  induction t with
  | nil => rfl
  | cons p t ih =>
    obtain ⟨k', v'⟩ := p
    by_cases h1 : k' = k
    · subst h1; simpa [tdel, tfind, h] using ih
    · have e : tdel ((k', v') :: t) k = (k', v') :: tdel t k := by simp [tdel, h1]
      rw [e]; simp only [tfind, ih]

@[simp] theorem tget_tins_same (d : α) (t : Table α) (k : Nat) (v : α) : tget d (tins t k v) k = v := by
  simp [tget, tfind_tins_same]

theorem tget_tins_other (d : α) (t : Table α) {j k : Nat} (v : α) (h : j ≠ k) : tget d (tins t k v) j = tget d t j := by
  simp [tget, tfind_tins_other t v h]

@[simp] theorem tget_tput_same [DecidableEq α] (d : α) (t : Table α) (k : Nat) (v : α) : tget d (tput d t k v) k = v := by
  unfold tput; split
  · simp [tget, tfind_tdel_same, *]
  · simp

theorem tget_tput_other [DecidableEq α] (d : α) (t : Table α) {j k : Nat} (v : α) (h : j ≠ k) :
    tget d (tput d t k v) j = tget d t j := by
  unfold tput; split
  · simp [tget, tfind_tdel_other t h]
  · exact tget_tins_other d t v h

theorem risingFrom_mono {t : Table α} {lo lo' : Nat} (h : lo' ≤ lo) (ht : risingFrom lo t = true) : risingFrom lo' t = true := by
  cases t with
  | nil => rfl
  | cons p t => simp only [risingFrom, Bool.and_eq_true, decide_eq_true_eq] at ht ⊢; exact ⟨by omega, ht.2⟩

theorem risingFrom_tins {t : Table α} {lo k : Nat} (v : α) (hk : lo ≤ k) (ht : risingFrom lo t = true) :
    risingFrom lo (tins t k v) = true := by
  induction t generalizing lo with
  | nil => simp [tins, risingFrom, hk]
  | cons p t ih =>
    obtain ⟨k', v'⟩ := p
    simp only [risingFrom, Bool.and_eq_true, decide_eq_true_eq] at ht
    simp only [tins]
    split
    · simp only [risingFrom, Bool.and_eq_true, decide_eq_true_eq]; exact ⟨hk, by omega, ht.2⟩
    · split
      · subst_vars; simp only [risingFrom, Bool.and_eq_true, decide_eq_true_eq]; exact ⟨hk, ht.2⟩
      · simp only [risingFrom, Bool.and_eq_true, decide_eq_true_eq]; exact ⟨ht.1, ih (by omega) ht.2⟩

theorem risingFrom_filter {t : Table α} {lo : Nat} (q : Nat × α → Bool) (ht : risingFrom lo t = true) :
    risingFrom lo (t.filter q) = true := by
  induction t generalizing lo with
  | nil => rfl
  | cons p t ih =>
    obtain ⟨k', v'⟩ := p
    simp only [risingFrom, Bool.and_eq_true, decide_eq_true_eq] at ht
    by_cases h : q (k', v') = true
    · rw [List.filter_cons_of_pos h]; simp only [risingFrom, Bool.and_eq_true, decide_eq_true_eq]; exact ⟨ht.1, ih ht.2⟩
    · rw [List.filter_cons_of_neg h]; exact risingFrom_mono (by omega) (ih ht.2)

theorem mem_tins {t : Table α} {k : Nat} {v : α} {p : Nat × α} (h : p ∈ tins t k v) : p = (k, v) ∨ p ∈ t := by
  induction t with
  | nil => simpa [tins] using h
  | cons q t ih =>
    obtain ⟨k', v'⟩ := q
    simp only [tins] at h
    split at h
    · simpa using h
    · split at h
      · simp only [List.mem_cons] at h ⊢; rcases h with h | h <;> simp [h]
      · simp only [List.mem_cons] at h ⊢
        rcases h with h | h
        · simp [h]
        · rcases ih h with h | h <;> simp [h]

theorem tableWf_tins [DecidableEq α] {d : α} {t : Table α} (k : Nat) {v : α} (hv : v ≠ d) (ht : tableWf d t = true) :
    tableWf d (tins t k v) = true := by
  simp only [tableWf, Bool.and_eq_true, List.all_eq_true] at ht ⊢
  refine ⟨risingFrom_tins v (Nat.zero_le k) ht.1, fun p hp => ?_⟩
  rcases mem_tins hp with h | h
  · simp [h, hv]
  · exact ht.2 p h

theorem tableWf_filter [DecidableEq α] {d : α} {t : Table α} (q : Nat × α → Bool) (ht : tableWf d t = true) :
    tableWf d (t.filter q) = true := by
  simp only [tableWf, Bool.and_eq_true, List.all_eq_true] at ht ⊢
  exact ⟨risingFrom_filter q ht.1, fun p hp => ht.2 p (List.mem_filter.mp hp).1⟩

theorem tableWf_tput [DecidableEq α] {d : α} {t : Table α} (k : Nat) (v : α) (ht : tableWf d t = true) :
    tableWf d (tput d t k v) = true := by
  unfold tput; split
  · exact tableWf_filter _ ht
  · exact tableWf_tins k (by assumption) ht

theorem Memory.wf_writeByte {m : List Host.Cell} (a : Nat) (v : Byte) (h : Memory.wf m = true) :
    Memory.wf (writeByte m a v) = true := tableWf_tput a v h

theorem Memory.wf_writeBytes (bs : List Byte) : ∀ {m : List Host.Cell} (a : Nat), Memory.wf m = true →
    Memory.wf (writeBytes m a bs) = true := by
  induction bs with
  | nil => intro m a h; exact h
  | cons v vs ih => intro m a h; exact ih (a + 1) (Memory.wf_writeByte a v h)

theorem Memory.wf_writeLine {m : List Host.Cell} (a : Nat) (l : Line) (h : Memory.wf m = true) :
    Memory.wf (writeLine m a l) = true := Memory.wf_writeBytes _ a h

theorem Memory.wf_writeNat {m : List Host.Cell} (a n v : Nat) (h : Memory.wf m = true) :
    Memory.wf (writeNat m a n v) = true := Memory.wf_writeBytes _ a h

theorem Memory.wf_filter {m : List Host.Cell} (q : Host.Cell → Bool) (h : Memory.wf m = true) :
    Memory.wf (m.filter q) = true := tableWf_filter q h

theorem foldl_keeps {β γ : Type} {P : β → Prop} {f : β → γ → β} (l : List γ) (hf : ∀ b, ∀ x ∈ l, P b → P (f b x)) :
    ∀ b, P b → P (l.foldl f b) := by
  induction l with
  | nil => intro b h; exact h
  | cons x l ih =>
    intro b h
    exact ih (fun b y hy => hf b y (List.mem_cons_of_mem x hy)) _ (hf b x List.mem_cons_self h)

theorem Memory.wf_writeLines {m : List Host.Cell} (a : Nat) (ls : List Line) (h : Memory.wf m = true) :
    Memory.wf (writeLines m a ls) = true :=
  foldl_keeps (P := fun m => Memory.wf m = true) _ (fun _ _ _ hm => Memory.wf_writeLine _ _ hm) m h

@[simp] theorem readByte_writeByte_same (m : List Host.Cell) (a : Nat) (v : Byte) : readByte (writeByte m a v) a = v :=
  tget_tput_same _ m a v

theorem readByte_writeByte_other (m : List Host.Cell) {a b : Nat} (v : Byte) (h : b ≠ a) :
    readByte (writeByte m a v) b = readByte m b := tget_tput_other _ m v h

/-- Bytes outside those written read as before. -/
theorem readByte_writeBytes_other (bs : List Byte) : ∀ (m : List Host.Cell) (a b : Nat), (b < a ∨ a + bs.length ≤ b) →
    readByte (writeBytes m a bs) b = readByte m b := by
  induction bs with
  | nil => intro m a b _; rfl
  | cons v vs ih =>
    intro m a b h
    simp only [List.length_cons] at h
    rw [writeBytes, ih _ _ _ (by omega), readByte_writeByte_other m v (by omega)]

/-- A byte written reads as it was written. -/
theorem readByte_writeBytes_same (bs : List Byte) : ∀ (m : List Host.Cell) (a i : Nat), i < bs.length →
    readByte (writeBytes m a bs) (a + i) = bs.getD i 0 := by
  induction bs with
  | nil => intro m a i h; simp at h
  | cons v vs ih =>
    intro m a i h
    cases i with
    | zero => rw [writeBytes, Nat.add_zero, readByte_writeBytes_other vs _ _ _ (by omega)]; simp
    | succ i =>
      have := ih (writeByte m a v) (a + 1) i (by simpa using h)
      rw [writeBytes, show a + (i + 1) = a + 1 + i by omega, this]; simp

theorem length_wordBytes (n : Nat) : ∀ w, (wordBytes n w).length = n := by
  induction n with
  | zero => intro w; rfl
  | succ n ih => intro w; simp [wordBytes, ih]

@[simp] theorem length_lineBytes (l : Line) : (lineBytes l).length = 64 := length_wordBytes 64 _

theorem bytesWord_wordBytes (n : Nat) : ∀ w, bytesWord (wordBytes n w) = w % 256 ^ n := by
  induction n with
  | zero => intro w; simp [wordBytes, bytesWord, Nat.mod_one]
  | succ n ih =>
    intro w
    simp only [wordBytes, bytesWord, ih, BitVec.toNat_ofNat]
    rw [show (2 : Nat) ^ 8 = 256 by rfl, Nat.pow_succ, Nat.mul_comm (256 ^ n) 256, Nat.mod_mul]

theorem bytesLine_lineBytes (l : Line) : bytesLine (lineBytes l) = l := by
  have h : (256 : Nat) ^ 64 = 2 ^ 512 := by rw [show (256 : Nat) = 2 ^ 8 by rfl, ← Nat.pow_mul]
  rw [bytesLine, lineBytes, bytesWord_wordBytes, h, Nat.mod_eq_of_lt l.isLt]
  simp

theorem readBytes_writeBytes (bs : List Byte) (m : List Host.Cell) (a : Nat) :
    readBytes (writeBytes m a bs) a bs.length = bs := by
  induction bs generalizing m a with
  | nil => rfl
  | cons v vs ih =>
    simp only [List.length_cons, readBytes, writeBytes, ih]
    rw [readByte_writeBytes_other vs _ _ _ (by omega)]; simp

theorem readBytes_writeBytes_other (bs : List Byte) (m : List Host.Cell) (a n : Nat) : ∀ b, (b + n ≤ a ∨ a + bs.length ≤ b) →
    readBytes (writeBytes m a bs) b n = readBytes m b n := by
  induction n with
  | zero => intro b _; rfl
  | succ n ih =>
    intro b h
    simp only [readBytes]
    rw [ih (b + 1) (by omega), readByte_writeBytes_other bs m a b (by omega)]

/-- A line written reads as it was written. -/
@[simp] theorem readLine_writeLine (m : List Host.Cell) (a : Nat) (l : Line) : readLine (writeLine m a l) a = l := by
  have := readBytes_writeBytes (lineBytes l) m a
  rw [length_lineBytes] at this
  rw [readLine, writeLine, this, bytesLine_lineBytes]

/-- A line that does not meet the one written reads as before. -/
theorem readLine_writeLine_other (m : List Host.Cell) {a b : Nat} (l : Line) (h : b + 64 ≤ a ∨ a + 64 ≤ b) :
    readLine (writeLine m a l) b = readLine m b := by
  rw [readLine, writeLine, readBytes_writeBytes_other _ m a 64 b (by simpa using h)]; rfl

end Sys2Proof.Machine
end

