-- ==== Sys2Proof/Laws/Ops.lean ====
section
/-! SUPPORT. The shared operations: what each can do, said once. A brick read after a write; a check that finds nothing; an effect
that joins those in flight; the course of scalar and cluster operations. -/

namespace Sys2Proof.Machine

@[simp] theorem State.brick_setBrick_same (s : State) (b : Nat) (x : Brick) : (s.setBrick b x).brick b = x :=
  tget_tins_same _ _ _ _

theorem State.brick_setBrick_other (s : State) {b c : Nat} (x : Brick) (h : c ≠ b) : (s.setBrick b x).brick c = s.brick c :=
  tget_tins_other _ _ _ h

@[simp] theorem State.brick_onBrick_same (s : State) (b : Nat) (f : Brick → Brick) : (s.onBrick b f).brick b = f (s.brick b) :=
  tget_tins_same _ _ _ _

theorem State.brick_onBrick_other (s : State) {b c : Nat} (f : Brick → Brick) (h : c ≠ b) : (s.onBrick b f).brick c = s.brick c :=
  tget_tins_other _ _ _ h

@[simp] theorem State.issue_onBrick (s : State) (b : Nat) (f : Brick → Brick) : (s.onBrick b f).issue = s.issue := rfl
@[simp] theorem State.issue_onCur (s : State) (f : Brick → Brick) : (s.onCur f).issue = s.issue := rfl
@[simp] theorem State.tb_onBrick (s : State) (b : Nat) (f : Brick → Brick) : (s.onBrick b f).tb = s.tb := rfl
@[simp] theorem State.tb_onCur (s : State) (f : Brick → Brick) : (s.onCur f).tb = s.tb := rfl

@[simp] theorem State.cur_onCur (s : State) (f : Brick → Brick) : (s.onCur f).cur = f s.cur :=
  tget_tins_same _ _ _ _

@[simp] theorem State.cur_foundAt (s : State) (code slot : Nat) (r : List (Nat × Word)) : (s.foundAt code slot r).cur = s.cur := rfl

@[simp] theorem State.foundIf_false (s : State) (code slot : Nat) (r : List (Nat × Word)) : s.foundIf false code slot r = s := rfl

theorem State.foundIf_of_false (s : State) {c : Bool} (code slot : Nat) (r : List (Nat × Word)) (h : c = false) :
    s.foundIf c code slot r = s := by subst h; rfl

@[simp] theorem State.foundIf_true (s : State) (code slot : Nat) (r : List (Nat × Word)) :
    s.foundIf true code slot r = s.foundAt code slot r := rfl

@[simp] theorem State.channel_onChannel_same (s : State) (k : Nat) (f : Channel → Channel) :
    (s.onChannel k f).channel k = f (s.channel k) := tget_tins_same _ _ _ _

theorem State.channel_onChannel_other (s : State) {k j : Nat} (f : Channel → Channel) (h : j ≠ k) :
    (s.onChannel k f).channel j = s.channel j := tget_tins_other _ _ _ h

@[simp] theorem State.part_onPart_same (s : State) (k : Nat) (f : Part → Part) : (s.onPart k f).part k = f (s.part k) :=
  tget_tins_same _ _ _ _

@[simp] theorem State.task_onTask_same (s : State) (t : Nat) (f : Task → Task) : (s.onTask t f).task t = f (s.task t) :=
  tget_tins_same _ _ _ _

@[simp] theorem Channel.bank_onBank_same (c : Channel) (k : Nat) (f : Bank → Bank) : (c.onBank k f).bank k = f (c.bank k) :=
  tget_tins_same _ _ _ _

theorem Channel.bank_onBank_other (c : Channel) {k j : Nat} (f : Bank → Bank) (h : j ≠ k) : (c.onBank k f).bank j = c.bank j :=
  tget_tins_other _ _ _ h

/-- Two updates of one brick are one. -/
theorem tins_tins {α : Type} (t : Table α) (k : Nat) (v w : α) : tins (tins t k v) k w = tins t k w := by
  induction t with
  | nil => simp [tins]
  | cons p t ih =>
    obtain ⟨k', v'⟩ := p
    by_cases h1 : k < k'
    · simp [tins, h1]
    · by_cases h2 : k = k'
      · simp [tins, h2]
      · simp [tins, h1, h2, ih]

theorem State.onCur_onCur (s : State) (f g : Brick → Brick) : (s.onCur f).onCur g = s.onCur (fun x => g (f x)) := by
  have h : (s.onCur f).cur = f s.cur := s.cur_onCur f
  simp only [State.onCur, State.onBrick, State.setBrick] at *
  simp only [State.cur, State.brick] at h
  simp [State.brick, tins_tins]

/-- Nothing in the way: no effect in flight collides. -/
theorem State.collision_none {s : State} {f : Flight} (h : s.freeFor f = true) : s.collision f = none := by
  simp only [State.freeFor, List.all_eq_true, Bool.not_eq_true'] at h
  have h1 : (s.cur.flights.drop ((s.issue.saved.map fun y => y.flights.length).getD 0)).find? f.collides = none :=
    List.find?_eq_none.mpr fun g hg => by simp [h g (List.mem_of_mem_drop hg)]
  have h2 : s.cur.flights.any f.collides = false := List.any_eq_false.mpr fun g hg => by simp [h g hg]
  simp [State.collision, h1, h2]

/-- An effect that meets nothing joins those in flight, and that is all. -/
theorem State.addFlight_free {s : State} {f : Flight} (h : s.freeFor f = true) : s.addFlight f = s.scheduled [f] := by
  simp [State.addFlight, State.collision_none h, State.scheduled]

/-- An effect joins those in flight; a collision is found beside it (R41). -/
theorem State.addFlight_cases (s : State) (f : Flight) :
    s.addFlight f = s.scheduled [f] ∨ ∃ slot, s.addFlight f = (s.scheduled [f]).foundAt 0x01 slot := by
  simp only [State.addFlight]
  cases h : s.collision f with
  | none => exact .inl rfl
  | some k => exact .inr ⟨k, rfl⟩

/-- A scalar operation under a false guard does nothing. -/
theorem scalarOp_off {o : SlotOp} {opds : List Opd} {lat : Nat} {d : Dest} {f : Brick → Word} {s : State}
    (h : guardTrue s.cur o.g = false) : scalarOp o opds lat d f s = s := by
  simp [scalarOp, h]

/-- A scalar operation whose operands are good and whose destination is free schedules its one effect. -/
theorem scalarOp_on {o : SlotOp} {opds : List Opd} {lat : Nat} {d : Dest} {f : Brick → Word} {s : State}
    (hg : guardTrue s.cur o.g = true) (hu : opds.any (scalarUe s.cur) = false)
    (hf : s.freeFor (s.effect o.pos lat true d ((f s.cur).setWidth 512)) = true) :
    scalarOp o opds lat d f s = s.scheduled [s.effect o.pos lat true d ((f s.cur).setWidth 512)] := by
  have h := State.addFlight_free hf
  simp only [scalarOp, hg, if_true, hu, State.foundIf_false]
  exact h

/-- A tap that finds a value is no fault. -/
theorem State.tapCheck_ok {s : State} {slot c : Nat} {d : Opd} (h : s.operandOk c d = true) :
    s.tapCheck slot (2 * c + 1) d = s := by
  cases d <;> simp only [State.tapCheck]
  rename_i aw lane
  simp only [State.operandOk, Bool.and_eq_true] at h
  apply State.foundIf_of_false
  have h2 := h.2
  cases ht : tap s.cur aw lane (2 * c + 1) with
  | none => simp [ht] at h2
  | some v => rfl

theorem State.clusterChecks_ok {s : State} {o : SlotOp} {opds : List Opd}
    (h : opds.all (s.operandOk (clusterOf o.pos)) = true) : s.clusterChecks o opds = s := by
  rw [List.all_eq_true] at h
  have h1 : ∀ l : List Opd, (∀ d ∈ l, s.operandOk (clusterOf o.pos) d = true) →
      l.foldl (fun s d => s.tapCheck o.pos (2 * clusterOf o.pos + 1) d) s = s := by
    intro l
    induction l with
    | nil => intro _; rfl
    | cons d l ih =>
      intro hl
      rw [List.foldl_cons, State.tapCheck_ok (hl d List.mem_cons_self)]
      exact ih fun d hd => hl d (List.mem_cons_of_mem _ hd)
  simp only [State.clusterChecks, h1 opds h]
  apply State.foundIf_of_false
  rw [List.any_eq_false]
  intro d hd
  have := h d hd
  simp only [State.operandOk, Bool.and_eq_true, Bool.not_eq_true'] at this
  simp [this.1]

/-- A cluster operation under an all-zero guard does nothing (R201). -/
theorem vecOp_off {o : SlotOp} {opds : List Opd} {lat w : Nat} {f : Line → Line → Line → VRes} {s : State}
    (h : guardBits s.cur o.g = 0) : vecOp o opds lat w f s = s := by simp [vecOp, h]

/-- A cluster operation whose operands are good and whose destination is free schedules its one effect. -/
theorem vecOp_on {o : SlotOp} {opds : List Opd} {lat w : Nat} {f : Line → Line → Line → VRes} {s : State}
    (hg : guardBits s.cur o.g ≠ 0) (hu : opds.all (s.operandOk (clusterOf o.pos)) = true) {r : VRes}
    (hr : r = f ((clusterVal s.cur (clusterOf o.pos) w o.a).getD 0) ((clusterVal s.cur (clusterOf o.pos) w o.b).getD 0)
      (readV s.cur (clusterOf o.pos) o.dst.index))
    (hf : s.freeFor (s.effect o.pos lat true (.vreg (clusterOf o.pos) (physReg s.cur (clusterOf o.pos) o.dst.index)) r.line) = true) :
    vecOp o opds lat w f s =
      s.scheduled [{ s.effect o.pos lat true (.vreg (clusterOf o.pos) (physReg s.cur (clusterOf o.pos) o.dst.index)) r.line with
        mask := guardBits s.cur o.g &&& r.writes
        ev := enabledEvents (guardBits s.cur o.g &&& r.writes) r.evs
        evMask := eventMask (guardBits s.cur o.g &&& r.writes) r.evs }] := by
  subst hr
  simp only [vecOp, hg, if_false, State.clusterChecks_ok hu]
  exact State.addFlight_free hf

theorem vecPred_off {o : SlotOp} {opds : List Opd} {lat w : Nat} {f : Line → Line → VRes} {s : State}
    (h : guardBits s.cur o.g = 0) : vecPred o opds lat w f s = s := by simp [vecPred, h]

theorem vecPred_on {o : SlotOp} {opds : List Opd} {lat w : Nat} {f : Line → Line → VRes} {s : State}
    (hg : guardBits s.cur o.g ≠ 0) (hu : opds.all (s.operandOk (clusterOf o.pos)) = true) {r : VRes}
    (hr : r = f ((clusterVal s.cur (clusterOf o.pos) w o.a).getD 0) ((clusterVal s.cur (clusterOf o.pos) w o.b).getD 0))
    (hf : s.freeFor (s.effect o.pos lat true (.ppred (clusterOf o.pos) (physPred s.cur (clusterOf o.pos) o.dst.index)) r.line) = true) :
    vecPred o opds lat w f s =
      s.scheduled [{ s.effect o.pos lat true (.ppred (clusterOf o.pos) (physPred s.cur (clusterOf o.pos) o.dst.index)) r.line with
        ev := enabledEvents (guardBits s.cur o.g) r.evs
        evMask := eventMask (guardBits s.cur o.g) r.evs }] := by
  subst hr
  simp only [vecPred, hg, if_false, State.clusterChecks_ok hu]
  exact State.addFlight_free hf

/-- Taking a fault: nothing found, nothing done. -/
theorem State.takeTrap_none {s : State} {b : Nat} (h : (s.brick b).trap.found = []) : s.takeTrap b = s := by
  simp [State.takeTrap, h, pickLate]

/-- From PHASE 4 on a port's control columns are its table's. -/
theorem State.control_ready {s : State} {port : Nat} (h : 4 ≤ s.mason.phase) :
    s.control port = fld (tget 0 s.mason.admitReg port) 16 16 := if_neg (Nat.not_lt.2 h)

/-- A pre-emption held pending goes before any other fault. -/
theorem Late.before_forced {f g : Late} (hf : f.forced = true) (hg : g.forced = false) : f.before g = true := by
  simp [Late.before, hf, hg]

/-- A brick already trapped keeps every fault pending (R381). -/
theorem State.takeTrap_trapped {s : State} {b : Nat} (ht : (s.brick b).trap.trapped = true) (h : (s.brick b).trap.found ≠ []) :
    s.takeTrap b = s.setBrick b (addPending { s.brick b with trap := { (s.brick b).trap with found := [] } } (s.brick b).trap.found) := by
  cases hp : pickLate (s.brick b).trap.found with
  | none =>
    cases hf : (s.brick b).trap.found with
    | nil => exact absurd hf h
    | cons f fs =>
      rw [hf] at hp
      simp only [pickLate] at hp
      split at hp
      · cases hp
      · split at hp <;> cases hp
  | some p => simp [State.takeTrap, hp, ht]

end Sys2Proof.Machine
end

