-- ==== Sys2Proof/Laws/Elems.lean ====
section
/-! SUPPORT. Lines by their elements, masks by their bits, and the events of an operation's enabled bytes. -/

namespace Sys2Proof.Machine

/-- The number that elements of w bits form, element 0 lowest. -/
def joinElems (w : Nat) (xs : List Nat) : Nat := xs.foldr (fun x acc => x % 2 ^ w + 2 ^ w * acc) 0

theorem joinElems_lt (w : Nat) (xs : List Nat) : joinElems w xs < 2 ^ (w * xs.length) := by
  induction xs with
  | nil => simp [joinElems]
  | cons x xs ih =>
    have hx : x % 2 ^ w < 2 ^ w := Nat.mod_lt _ (Nat.two_pow_pos w)
    have hs : 2 ^ (w * (xs.length + 1)) = 2 ^ w * 2 ^ (w * xs.length) := by rw [Nat.mul_add, Nat.mul_one, Nat.pow_add, Nat.mul_comm]
    have h1 : joinElems w (x :: xs) = x % 2 ^ w + 2 ^ w * joinElems w xs := rfl
    rw [h1, List.length_cons, hs]
    calc x % 2 ^ w + 2 ^ w * joinElems w xs < 2 ^ w + 2 ^ w * joinElems w xs := by omega
      _ = 2 ^ w * (joinElems w xs + 1) := by rw [Nat.mul_add, Nat.mul_one, Nat.add_comm]
      _ ≤ 2 ^ w * 2 ^ (w * xs.length) := Nat.mul_le_mul_left _ ih

theorem joinElems_get (w : Nat) (xs : List Nat) : ∀ e, e < xs.length →
    joinElems w xs / 2 ^ (w * e) % 2 ^ w = xs.getD e 0 % 2 ^ w := by
  induction xs with
  | nil => intro e h; simp at h
  | cons x xs ih =>
    intro e h
    have h1 : joinElems w (x :: xs) = x % 2 ^ w + 2 ^ w * joinElems w xs := rfl
    cases e with
    | zero => rw [h1]; simp
    | succ e =>
      have h2 : 2 ^ (w * (e + 1)) = 2 ^ w * 2 ^ (w * e) := by rw [Nat.mul_add, Nat.mul_one, Nat.pow_add, Nat.mul_comm]
      rw [h1, h2, ← Nat.div_div_eq_div_mul, Nat.add_mul_div_left _ _ (Nat.two_pow_pos w),
        Nat.div_eq_of_lt (Nat.mod_lt _ (Nat.two_pow_pos w)), Nat.zero_add, ih e (by simpa using h)]
      simp

/-- An element of a line made of elements. -/
theorem elem_ofElems {w : Nat} {xs : List Nat} (h : w * xs.length ≤ 512) {e : Nat} (he : e < xs.length) :
    elem w (ofElems w xs) e = xs.getD e 0 % 2 ^ w := by
  have hlt : joinElems w xs < 2 ^ (512 : Nat) :=
    Nat.lt_of_lt_of_le (joinElems_lt w xs) (Nat.pow_le_pow_right Nat.two_pos h)
  have h1 : (ofElems w xs).toNat = joinElems w xs := by
    rw [ofElems, BitVec.toNat_ofNat]; exact Nat.mod_eq_of_lt hlt
  rw [elem, h1, joinElems_get w xs e he]

@[simp] theorem length_elems (w : Nat) (l : Line) : (elems w l).length = 512 / w := by simp [elems]

theorem elem_lt (w : Nat) (l : Line) (e : Nat) : elem w l e < 2 ^ w := Nat.mod_lt _ (Nat.two_pow_pos w)

theorem getD_elems {w : Nat} (l : Line) {e : Nat} (he : e < 512 / w) (d : Nat) : (elems w l).getD e d = elem w l e := by
  simp [elems, elem, List.getD, he]

theorem getElem_elems {w : Nat} (l : Line) {e : Nat} (he : e < (elems w l).length) : (elems w l)[e] = elem w l e := by
  simp [elems, elem]

theorem getD_zipWith {β γ δ : Type} (f : β → γ → δ) (xs : List β) (ys : List γ) (e : Nat) (hx : e < xs.length)
    (hy : e < ys.length) (d : δ) : (List.zipWith f xs ys).getD e d = f xs[e] ys[e] := by
  have h : e < (List.zipWith f xs ys).length := by rw [List.length_zipWith]; omega
  rw [List.getD_eq_getElem?_getD, List.getElem?_eq_getElem h, Option.getD_some, List.getElem_zipWith]

theorem getD_map {β γ : Type} (f : β → γ) (xs : List β) (e : Nat) (hx : e < xs.length) (d : γ) :
    (xs.map f).getD e d = f xs[e] := by
  simp [List.getD, hx]

/-- The number whose low bits are those of a function. -/
theorem maskNat_bit (f : Nat → Bool) (l : List Nat) : ∀ j, j < l.length →
    (l.foldr (fun j acc => (if f j then 1 else 0) + 2 * acc) 0).testBit j = f (l.getD j 0) := by
  induction l with
  | nil => intro j h; simp at h
  | cons x l ih =>
    intro j h
    have hd : ∀ m : Nat, ((if f x = true then 1 else 0) + 2 * m) / 2 = m := by intro m; split <;> omega
    have hm : ∀ m : Nat, ((if f x = true then 1 else 0) + 2 * m) % 2 = if f x = true then 1 else 0 := by intro m; split <;> omega
    rw [List.foldr_cons]
    cases j with
    | zero => rw [Nat.testBit_zero, hm]; cases hx : f x <;> simp [hx]
    | succ j => rw [Nat.testBit_succ, hd, ih j (by simpa using h)]; simp

theorem maskOf_bit (f : Nat → Bool) {j : Nat} (h : j < 64) : (maskOf f).getLsbD j = f j := by
  rw [maskOf, BitVec.getLsbD_ofNat, maskNat_bit f _ j (by simpa using h)]
  simp [h]

/-- One event of the enabled bytes together. -/
theorem foldl_event (m : BitVec 64) (p : Events → Bool) (hor : ∀ a b, p (a.or b) = (p a || p b)) (l : List (Events × Nat)) :
    ∀ acc, p (l.foldl (fun acc q => if m.getLsbD q.2 then acc.or q.1 else acc) acc) =
      (p acc || l.any fun q => m.getLsbD q.2 && p q.1) := by
  induction l with
  | nil => intro acc; simp
  | cons q l ih =>
    intro acc
    rw [List.foldl_cons, ih]
    cases hm : m.getLsbD q.2 <;> simp [hm, hor, Bool.or_assoc]

/-- An event of an operation is one of an enabled byte (R207). -/
theorem enabledEvents_flag (m : BitVec 64) (evs : List Events) (p : Events → Bool) (hor : ∀ a b, p (a.or b) = (p a || p b))
    (hn : p .none = false) :
    p (enabledEvents m evs) = true ↔ ∃ j, j < evs.length ∧ m.getLsbD j = true ∧ p (evs.getD j .none) = true := by
  rw [enabledEvents, foldl_event m p hor, hn, Bool.false_or, List.any_eq_true]
  constructor
  · rintro ⟨q, hq, hb⟩
    have := List.mem_zipIdx hq
    simp only [Bool.and_eq_true] at hb
    refine ⟨q.2, by omega, hb.1, ?_⟩
    have he : evs.getD q.2 .none = q.1 := by
      have hl : q.2 < evs.length := by omega
      simp [List.getD, hl]
      simpa using this.2.2.symm
    rw [he]; exact hb.2
  · rintro ⟨j, hj, hm, hp⟩
    refine ⟨(evs[j], j), ?_, ?_⟩
    · rw [List.mem_zipIdx_iff_getElem?]; simp [hj]
    · simp only [Bool.and_eq_true]; exact ⟨hm, by simpa [List.getD, hj] using hp⟩

theorem eventMask_bit (m : BitVec 64) (evs : List Events) {j : Nat} (h : j < 64) :
    (eventMask m evs).getLsbD j = (m.getLsbD j && (evs.getD j .none).any) := maskOf_bit _ h

@[simp] theorem enabledEvents_nil (m : BitVec 64) : enabledEvents m [] = .none := rfl

theorem eventMask_nil (m : BitVec 64) : eventMask m [] = 0 := by
  apply BitVec.eq_of_getLsbD_eq
  intro i hi
  rw [eventMask_bit m [] hi]
  simp [Events.any, Events.none]

/-- A register's place decides whether an effect is free to land there. -/
theorem State.freeFor_congr (s : State) {f g : Flight} (h : f.lands = g.lands) : s.freeFor f = s.freeFor g := by
  simp only [State.freeFor, Flight.collides, h]

end Sys2Proof.Machine
end

