-- ==== Sys2Proof/Laws/PerInstr.lean ====
section
/-! SUPPORT. The family F, one lemma for each operation of the table: a well-formed operation that has a slot word stands in one of
the 40 slot positions (R29, R31); an event has none. -/

namespace Sys2Proof.Laws

/-- A well-formed operation's slot word stands in a position of the bundle (R29, R31). -/
def F.Statement (i : Instr) : Prop := i.wf = true → ∀ p w, encodeSlot i = some (p, w) → p < 40

theorem F.fixed {i : Instr} {p w : Nat} (h : encodeSlot i = some (p, w)) (hp : p < 40) : F.Statement i := by
  intro _ p' w' h'
  rw [h] at h'
  cases h'
  exact hp

theorem F.named {i : Instr} {p w : Nat} (h : encodeSlot i = some (p, w)) (hp : i.wf = true → p < 40) : F.Statement i := by
  intro hw p' w' h'
  rw [h] at h'
  cases h'
  exact hp hw

theorem F.scalarPos {p : Nat} {a : Bool} (h : (isScalarPos p && a) = true) : p < 40 := by
  simp [isScalarPos] at h; omega

theorem F.unitPos {u p : Nat} {a : Bool} (h : (isUnitPos u p && a) = true) : p < 40 := by
  simp [isUnitPos] at h; omega

theorem F.ringPos {o : RingOp} {a : Bool} (h : o.wf a = true) : o.pos < 40 := by
  simp [RingOp.wf, isRingPos] at h; omega

theorem F.apPos {o : ApOp} (h : o.wf = true) : o.pos < 40 := by
  simp [ApOp.wf, isApPos] at h; omega

theorem F.matrixPos {p : Nat} {a : Bool} (h : (p == 35 && a) = true) : p < 40 := by
  simp at h; omega

theorem F.bundleIssue (b : Nat) : F.Statement (.bundleIssue b) := fun _ _ _ h => by cases h
theorem F.resultLanding (b ph : Nat) : F.Statement (.resultLanding b ph) := fun _ _ _ h => by cases h
theorem F.branch (o : CtlOp) : F.Statement (.branch o) := F.fixed rfl (by decide)
theorem F.branchReg (o : CtlOp) : F.Statement (.branchReg o) := F.fixed rfl (by decide)
theorem F.call (o : CtlOp) : F.Statement (.call o) := F.fixed rfl (by decide)
theorem F.loop (o : CtlOp) : F.Statement (.loop o) := F.fixed rfl (by decide)
theorem F.lbrk (o : CtlOp) : F.Statement (.lbrk o) := F.fixed rfl (by decide)
theorem F.setstep (o : CtlOp) : F.Statement (.setstep o) := F.fixed rfl (by decide)
theorem F.rot (o : CtlOp) : F.Statement (.rot o) := F.fixed rfl (by decide)
theorem F.rotset (o : CtlOp) : F.Statement (.rotset o) := F.fixed rfl (by decide)
theorem F.settle (o : CtlOp) : F.Statement (.settle o) := F.fixed rfl (by decide)
theorem F.yield (o : CtlOp) : F.Statement (.yield o) := F.fixed rfl (by decide)
theorem F.drift (o : CtlOp) : F.Statement (.drift o) := F.fixed rfl (by decide)
theorem F.trap (o : CtlOp) : F.Statement (.trap o) := F.fixed rfl (by decide)
theorem F.ppop (o : CtlOp) : F.Statement (.ppop o) := F.fixed rfl (by decide)
theorem F.endTask (o : CtlOp) : F.Statement (.endTask o) := F.fixed rfl (by decide)
theorem F.taskEnd (t : Nat) : F.Statement (.taskEnd t) := fun _ _ _ h => by cases h
theorem F.movI64 (o : SlotOp) : F.Statement (.movI64 o) := F.named rfl fun hw => by
    change (_ && _) = true at hw; simp only [Bool.and_assoc] at hw; exact F.scalarPos hw
theorem F.addI64 (o : SlotOp) : F.Statement (.addI64 o) := F.named rfl fun hw => by
    change (_ && _) = true at hw; simp only [Bool.and_assoc] at hw; exact F.scalarPos hw
theorem F.subI64 (o : SlotOp) : F.Statement (.subI64 o) := F.named rfl fun hw => by
    change (_ && _) = true at hw; simp only [Bool.and_assoc] at hw; exact F.scalarPos hw
theorem F.and (o : SlotOp) : F.Statement (.and o) := F.named rfl fun hw => by
    change (_ && _) = true at hw; simp only [Bool.and_assoc] at hw; exact F.scalarPos hw
theorem F.or (o : SlotOp) : F.Statement (.or o) := F.named rfl fun hw => by
    change (_ && _) = true at hw; simp only [Bool.and_assoc] at hw; exact F.scalarPos hw
theorem F.xor (o : SlotOp) : F.Statement (.xor o) := F.named rfl fun hw => by
    change (_ && _) = true at hw; simp only [Bool.and_assoc] at hw; exact F.scalarPos hw
theorem F.shl (o : SlotOp) : F.Statement (.shl o) := F.named rfl fun hw => by
    change (_ && _) = true at hw; simp only [Bool.and_assoc] at hw; exact F.scalarPos hw
theorem F.shr (o : SlotOp) : F.Statement (.shr o) := F.named rfl fun hw => by
    change (_ && _) = true at hw; simp only [Bool.and_assoc] at hw; exact F.scalarPos hw
theorem F.sar (o : SlotOp) : F.Statement (.sar o) := F.named rfl fun hw => by
    change (_ && _) = true at hw; simp only [Bool.and_assoc] at hw; exact F.scalarPos hw
theorem F.minI64 (o : SlotOp) : F.Statement (.minI64 o) := F.named rfl fun hw => by
    change (_ && _) = true at hw; simp only [Bool.and_assoc] at hw; exact F.scalarPos hw
theorem F.maxI64 (o : SlotOp) : F.Statement (.maxI64 o) := F.named rfl fun hw => by
    change (_ && _) = true at hw; simp only [Bool.and_assoc] at hw; exact F.scalarPos hw
theorem F.mulI64 (o : SlotOp) : F.Statement (.mulI64 o) := F.named rfl fun hw => by
    change (_ && _) = true at hw; simp only [Bool.and_assoc] at hw; exact F.scalarPos hw
theorem F.mulhI64 (o : SlotOp) : F.Statement (.mulhI64 o) := F.named rfl fun hw => by
    change (_ && _) = true at hw; simp only [Bool.and_assoc] at hw; exact F.scalarPos hw
theorem F.cmpeqI64 (o : SlotOp) : F.Statement (.cmpeqI64 o) := F.named rfl fun hw => by
    change (_ && _) = true at hw; simp only [Bool.and_assoc] at hw; exact F.scalarPos hw
theorem F.cmpneI64 (o : SlotOp) : F.Statement (.cmpneI64 o) := F.named rfl fun hw => by
    change (_ && _) = true at hw; simp only [Bool.and_assoc] at hw; exact F.scalarPos hw
theorem F.cmpltI64 (o : SlotOp) : F.Statement (.cmpltI64 o) := F.named rfl fun hw => by
    change (_ && _) = true at hw; simp only [Bool.and_assoc] at hw; exact F.scalarPos hw
theorem F.cmpleI64 (o : SlotOp) : F.Statement (.cmpleI64 o) := F.named rfl fun hw => by
    change (_ && _) = true at hw; simp only [Bool.and_assoc] at hw; exact F.scalarPos hw
theorem F.qand (o : SlotOp) : F.Statement (.qand o) := F.named rfl fun hw => by
    change (_ && _) = true at hw; simp only [Bool.and_assoc] at hw; exact F.scalarPos hw
theorem F.qor (o : SlotOp) : F.Statement (.qor o) := F.named rfl fun hw => by
    change (_ && _) = true at hw; simp only [Bool.and_assoc] at hw; exact F.scalarPos hw
theorem F.qxor (o : SlotOp) : F.Statement (.qxor o) := F.named rfl fun hw => by
    change (_ && _) = true at hw; simp only [Bool.and_assoc] at hw; exact F.scalarPos hw
theorem F.qnot (o : SlotOp) : F.Statement (.qnot o) := F.named rfl fun hw => by
    change (_ && _) = true at hw; simp only [Bool.and_assoc] at hw; exact F.scalarPos hw
theorem F.bfx (o : SlotOp) : F.Statement (.bfx o) := F.named rfl fun hw => by
    change (_ && _) = true at hw; simp only [Bool.and_assoc] at hw; exact F.scalarPos hw
theorem F.bfi (o : SlotOp) : F.Statement (.bfi o) := F.named rfl fun hw => by
    change (_ && _) = true at hw; simp only [Bool.and_assoc] at hw; exact F.scalarPos hw
theorem F.popc (o : SlotOp) : F.Statement (.popc o) := F.named rfl fun hw => by
    change (_ && _) = true at hw; simp only [Bool.and_assoc] at hw; exact F.scalarPos hw
theorem F.clz (o : SlotOp) : F.Statement (.clz o) := F.named rfl fun hw => by
    change (_ && _) = true at hw; simp only [Bool.and_assoc] at hw; exact F.scalarPos hw
theorem F.ld (o : SlotOp) : F.Statement (.ld o) := F.named rfl fun hw => by
    change (_ && _) = true at hw; simp only [Bool.and_assoc] at hw; exact F.scalarPos hw
theorem F.st (o : SlotOp) : F.Statement (.st o) := F.named rfl fun hw => by
    change (_ && _) = true at hw; simp only [Bool.and_assoc] at hw; exact F.scalarPos hw
theorem F.mfsr (o : SlotOp) : F.Statement (.mfsr o) := F.named rfl fun hw => by
    change (_ && _) = true at hw; simp only [Bool.and_assoc] at hw; exact F.scalarPos hw
theorem F.mtsr (o : SlotOp) : F.Statement (.mtsr o) := F.named rfl fun hw => by
    change (_ && _) = true at hw; simp only [Bool.and_assoc] at hw; exact F.scalarPos hw
theorem F.wid (o : SlotOp) : F.Statement (.wid o) := F.named rfl fun hw => by
    change (_ && _) = true at hw; simp only [Bool.and_assoc] at hw; exact F.scalarPos hw
theorem F.vmov (o : SlotOp) : F.Statement (.vmov o) := F.named rfl fun hw => by
    change (_ && _) = true at hw; simp only [Bool.and_assoc] at hw; exact F.unitPos hw
theorem F.vand (o : SlotOp) : F.Statement (.vand o) := F.named rfl fun hw => by
    change (_ && _) = true at hw; simp only [Bool.and_assoc] at hw; exact F.unitPos hw
theorem F.vor (o : SlotOp) : F.Statement (.vor o) := F.named rfl fun hw => by
    change (_ && _) = true at hw; simp only [Bool.and_assoc] at hw; exact F.unitPos hw
theorem F.vxor (o : SlotOp) : F.Statement (.vxor o) := F.named rfl fun hw => by
    change (_ && _) = true at hw; simp only [Bool.and_assoc] at hw; exact F.unitPos hw
theorem F.vandn (o : SlotOp) : F.Statement (.vandn o) := F.named rfl fun hw => by
    change (_ && _) = true at hw; simp only [Bool.and_assoc] at hw; exact F.unitPos hw
theorem F.vshlT (t : ETy) (o : SlotOp) : F.Statement (.vshlT t o) := F.named rfl fun hw => by
    change (_ && _) = true at hw; simp only [Bool.and_assoc] at hw; exact F.unitPos hw
theorem F.vshrT (t : ETy) (o : SlotOp) : F.Statement (.vshrT t o) := F.named rfl fun hw => by
    change (_ && _) = true at hw; simp only [Bool.and_assoc] at hw; exact F.unitPos hw
theorem F.vaddT (t : ETy) (o : SlotOp) : F.Statement (.vaddT t o) := F.named rfl fun hw => by
    change (_ && _) = true at hw; simp only [Bool.and_assoc] at hw; exact F.unitPos hw
theorem F.vsubT (t : ETy) (o : SlotOp) : F.Statement (.vsubT t o) := F.named rfl fun hw => by
    change (_ && _) = true at hw; simp only [Bool.and_assoc] at hw; exact F.unitPos hw
theorem F.vminT (t : ETy) (o : SlotOp) : F.Statement (.vminT t o) := F.named rfl fun hw => by
    change (_ && _) = true at hw; simp only [Bool.and_assoc] at hw; exact F.unitPos hw
theorem F.vmaxT (t : ETy) (o : SlotOp) : F.Statement (.vmaxT t o) := F.named rfl fun hw => by
    change (_ && _) = true at hw; simp only [Bool.and_assoc] at hw; exact F.unitPos hw
theorem F.vcmpeqT (t : ETy) (o : SlotOp) : F.Statement (.vcmpeqT t o) := F.named rfl fun hw => by
    change (_ && _) = true at hw; simp only [Bool.and_assoc] at hw; exact F.unitPos hw
theorem F.vcmpltT (t : ETy) (o : SlotOp) : F.Statement (.vcmpltT t o) := F.named rfl fun hw => by
    change (_ && _) = true at hw; simp only [Bool.and_assoc] at hw; exact F.unitPos hw
theorem F.vcmpleT (t : ETy) (o : SlotOp) : F.Statement (.vcmpleT t o) := F.named rfl fun hw => by
    change (_ && _) = true at hw; simp only [Bool.and_assoc] at hw; exact F.unitPos hw
theorem F.vsel (o : SlotOp) : F.Statement (.vsel o) := F.named rfl fun hw => by
    change (_ && _) = true at hw; simp only [Bool.and_assoc] at hw; exact F.unitPos hw
theorem F.pand (o : SlotOp) : F.Statement (.pand o) := F.named rfl fun hw => by
    change (_ && _) = true at hw; simp only [Bool.and_assoc] at hw; exact F.unitPos hw
theorem F.por (o : SlotOp) : F.Statement (.por o) := F.named rfl fun hw => by
    change (_ && _) = true at hw; simp only [Bool.and_assoc] at hw; exact F.unitPos hw
theorem F.pxor (o : SlotOp) : F.Statement (.pxor o) := F.named rfl fun hw => by
    change (_ && _) = true at hw; simp only [Bool.and_assoc] at hw; exact F.unitPos hw
theorem F.pnot (o : SlotOp) : F.Statement (.pnot o) := F.named rfl fun hw => by
    change (_ && _) = true at hw; simp only [Bool.and_assoc] at hw; exact F.unitPos hw
theorem F.vaddF (bf : Bool) (o : SlotOp) : F.Statement (.vaddF bf o) := F.named rfl fun hw => by
    change (_ && _) = true at hw; simp only [Bool.and_assoc] at hw; exact F.unitPos hw
theorem F.vsubF (bf : Bool) (o : SlotOp) : F.Statement (.vsubF bf o) := F.named rfl fun hw => by
    change (_ && _) = true at hw; simp only [Bool.and_assoc] at hw; exact F.unitPos hw
theorem F.vminF (bf : Bool) (o : SlotOp) : F.Statement (.vminF bf o) := F.named rfl fun hw => by
    change (_ && _) = true at hw; simp only [Bool.and_assoc] at hw; exact F.unitPos hw
theorem F.vmaxF (bf : Bool) (o : SlotOp) : F.Statement (.vmaxF bf o) := F.named rfl fun hw => by
    change (_ && _) = true at hw; simp only [Bool.and_assoc] at hw; exact F.unitPos hw
theorem F.vcmpeqF (bf : Bool) (o : SlotOp) : F.Statement (.vcmpeqF bf o) := F.named rfl fun hw => by
    change (_ && _) = true at hw; simp only [Bool.and_assoc] at hw; exact F.unitPos hw
theorem F.vcmpltF (bf : Bool) (o : SlotOp) : F.Statement (.vcmpltF bf o) := F.named rfl fun hw => by
    change (_ && _) = true at hw; simp only [Bool.and_assoc] at hw; exact F.unitPos hw
theorem F.vcmpleF (bf : Bool) (o : SlotOp) : F.Statement (.vcmpleF bf o) := F.named rfl fun hw => by
    change (_ && _) = true at hw; simp only [Bool.and_assoc] at hw; exact F.unitPos hw
theorem F.vabsF (bf : Bool) (o : SlotOp) : F.Statement (.vabsF bf o) := F.named rfl fun hw => by
    change (_ && _) = true at hw; simp only [Bool.and_assoc] at hw; exact F.unitPos hw
theorem F.vcvt (o : SlotOp) : F.Statement (.vcvt o) := F.named rfl fun hw => by
    change (_ && _) = true at hw; simp only [Bool.and_assoc] at hw; exact F.unitPos hw
theorem F.vmulF32 (o : SlotOp) : F.Statement (.vmulF32 o) := F.named rfl fun hw => by
    change (_ && _) = true at hw; simp only [Bool.and_assoc] at hw; exact F.unitPos hw
theorem F.vmulBf16 (o : SlotOp) : F.Statement (.vmulBf16 o) := F.named rfl fun hw => by
    change (_ && _) = true at hw; simp only [Bool.and_assoc] at hw; exact F.unitPos hw
theorem F.vfmaF32 (o : SlotOp) : F.Statement (.vfmaF32 o) := F.named rfl fun hw => by
    change (_ && _) = true at hw; simp only [Bool.and_assoc] at hw; exact F.unitPos hw
theorem F.vfmaBf16 (o : SlotOp) : F.Statement (.vfmaBf16 o) := F.named rfl fun hw => by
    change (_ && _) = true at hw; simp only [Bool.and_assoc] at hw; exact F.unitPos hw
theorem F.vfmsF32 (o : SlotOp) : F.Statement (.vfmsF32 o) := F.named rfl fun hw => by
    change (_ && _) = true at hw; simp only [Bool.and_assoc] at hw; exact F.unitPos hw
theorem F.vfmaF64 (o : SlotOp) : F.Statement (.vfmaF64 o) := F.named rfl fun hw => by
    change (_ && _) = true at hw; simp only [Bool.and_assoc] at hw; exact F.unitPos hw
theorem F.vmulF64 (o : SlotOp) : F.Statement (.vmulF64 o) := F.named rfl fun hw => by
    change (_ && _) = true at hw; simp only [Bool.and_assoc] at hw; exact F.unitPos hw
theorem F.vaddF64 (o : SlotOp) : F.Statement (.vaddF64 o) := F.named rfl fun hw => by
    change (_ && _) = true at hw; simp only [Bool.and_assoc] at hw; exact F.unitPos hw
theorem F.vmulI32 (o : SlotOp) : F.Statement (.vmulI32 o) := F.named rfl fun hw => by
    change (_ && _) = true at hw; simp only [Bool.and_assoc] at hw; exact F.unitPos hw
theorem F.vmulhI32 (o : SlotOp) : F.Statement (.vmulhI32 o) := F.named rfl fun hw => by
    change (_ && _) = true at hw; simp only [Bool.and_assoc] at hw; exact F.unitPos hw
theorem F.vdotI8 (o : SlotOp) : F.Statement (.vdotI8 o) := F.named rfl fun hw => by
    change (_ && _) = true at hw; simp only [Bool.and_assoc] at hw; exact F.unitPos hw
theorem F.vdotI16 (o : SlotOp) : F.Statement (.vdotI16 o) := F.named rfl fun hw => by
    change (_ && _) = true at hw; simp only [Bool.and_assoc] at hw; exact F.unitPos hw
theorem F.vshuf (o : SlotOp) : F.Statement (.vshuf o) := F.named rfl fun hw => by
    change (_ && _) = true at hw; simp only [Bool.and_assoc] at hw; exact F.unitPos hw
theorem F.vhbswap (o : SlotOp) : F.Statement (.vhbswap o) := F.named rfl fun hw => by
    change (_ && _) = true at hw; simp only [Bool.and_assoc] at hw; exact F.unitPos hw
theorem F.vhbld (o : SlotOp) : F.Statement (.vhbld o) := F.named rfl fun hw => by
    change (_ && _) = true at hw; simp only [Bool.and_assoc] at hw; exact F.unitPos hw
theorem F.vshaddI32 (o : SlotOp) : F.Statement (.vshaddI32 o) := F.named rfl fun hw => by
    change (_ && _) = true at hw; simp only [Bool.and_assoc] at hw; exact F.unitPos hw
theorem F.vshaddF32 (o : SlotOp) : F.Statement (.vshaddF32 o) := F.named rfl fun hw => by
    change (_ && _) = true at hw; simp only [Bool.and_assoc] at hw; exact F.unitPos hw
theorem F.vshmaxF32 (o : SlotOp) : F.Statement (.vshmaxF32 o) := F.named rfl fun hw => by
    change (_ && _) = true at hw; simp only [Bool.and_assoc] at hw; exact F.unitPos hw
theorem F.vshminF32 (o : SlotOp) : F.Statement (.vshminF32 o) := F.named rfl fun hw => by
    change (_ && _) = true at hw; simp only [Bool.and_assoc] at hw; exact F.unitPos hw
theorem F.vshaddBf16 (o : SlotOp) : F.Statement (.vshaddBf16 o) := F.named rfl fun hw => by
    change (_ && _) = true at hw; simp only [Bool.and_assoc] at hw; exact F.unitPos hw
theorem F.vrcpF32 (o : SlotOp) : F.Statement (.vrcpF32 o) := F.named rfl fun hw => by
    change (_ && _) = true at hw; simp only [Bool.and_assoc] at hw; exact F.unitPos hw
theorem F.vrsqF32 (o : SlotOp) : F.Statement (.vrsqF32 o) := F.named rfl fun hw => by
    change (_ && _) = true at hw; simp only [Bool.and_assoc] at hw; exact F.unitPos hw
theorem F.vexp2F32 (o : SlotOp) : F.Statement (.vexp2F32 o) := F.named rfl fun hw => by
    change (_ && _) = true at hw; simp only [Bool.and_assoc] at hw; exact F.unitPos hw
theorem F.vlog2F32 (o : SlotOp) : F.Statement (.vlog2F32 o) := F.named rfl fun hw => by
    change (_ && _) = true at hw; simp only [Bool.and_assoc] at hw; exact F.unitPos hw
theorem F.vdivF32 (o : SlotOp) : F.Statement (.vdivF32 o) := F.named rfl fun hw => by
    change (_ && _) = true at hw; simp only [Bool.and_assoc] at hw; exact F.unitPos hw
theorem F.vsqrtF32 (o : SlotOp) : F.Statement (.vsqrtF32 o) := F.named rfl fun hw => by
    change (_ && _) = true at hw; simp only [Bool.and_assoc] at hw; exact F.unitPos hw
theorem F.vxc (o : SlotOp) : F.Statement (.vxc o) := F.named rfl fun hw => by
    change (_ && _) = true at hw; simp only [Bool.and_assoc] at hw; exact F.unitPos hw
theorem F.vtap (o : SlotOp) : F.Statement (.vtap o) := F.named rfl fun hw => by
    change (_ && _) = true at hw; simp only [Bool.and_assoc] at hw; exact F.unitPos hw
theorem F.vput (o : SlotOp) : F.Statement (.vput o) := F.named rfl fun hw => by
    change (_ && _) = true at hw; simp only [Bool.and_assoc] at hw; exact F.unitPos hw
theorem F.mrd (o : RingOp) : F.Statement (.mrd o) := F.named rfl fun hw => F.ringPos hw
theorem F.mwr (o : RingOp) : F.Statement (.mwr o) := F.named rfl fun hw => F.ringPos hw
theorem F.mrdt (o : RingOp) : F.Statement (.mrdt o) := F.named rfl fun hw => F.ringPos hw
theorem F.mwrm (o : RingOp) : F.Statement (.mwrm o) := F.named rfl fun hw => F.ringPos hw
theorem F.mstag (o : RingOp) : F.Statement (.mstag o) := F.named rfl fun hw => F.ringPos hw
theorem F.correctableError (b : Nat) : F.Statement (.correctableError b) := fun _ _ _ h => by cases h
theorem F.freezeEnd (b : Nat) : F.Statement (.freezeEnd b) := fun _ _ _ h => by cases h
theorem F.mma (o : SlotOp) : F.Statement (.mma o) := F.named rfl fun hw => by
    change (_ && _) = true at hw; simp only [Bool.and_assoc] at hw; exact F.matrixPos hw
theorem F.mmat (o : SlotOp) : F.Statement (.mmat o) := F.named rfl fun hw => by
    change (_ && _) = true at hw; simp only [Bool.and_assoc] at hw; exact F.matrixPos hw
theorem F.mzero (o : SlotOp) : F.Statement (.mzero o) := F.named rfl fun hw => by
    change (_ && _) = true at hw; simp only [Bool.and_assoc] at hw; exact F.matrixPos hw
theorem F.mdrain (o : SlotOp) : F.Statement (.mdrain o) := F.named rfl fun hw => by
    change (_ && _) = true at hw; simp only [Bool.and_assoc] at hw; exact F.matrixPos hw
theorem F.mclaim (o : SlotOp) : F.Statement (.mclaim o) := F.named rfl fun hw => by
    change (_ && _) = true at hw; simp only [Bool.and_assoc] at hw; exact F.matrixPos hw
theorem F.mrel (o : SlotOp) : F.Statement (.mrel o) := F.named rfl fun hw => by
    change (_ && _) = true at hw; simp only [Bool.and_assoc] at hw; exact F.matrixPos hw
theorem F.moml (o : SlotOp) : F.Statement (.moml o) := F.named rfl fun hw => by
    change (_ && _) = true at hw; simp only [Bool.and_assoc] at hw; exact F.matrixPos hw
theorem F.aprd (o : ApOp) : F.Statement (.aprd o) := F.named rfl fun hw => F.apPos hw
theorem F.apwr (o : ApOp) : F.Statement (.apwr o) := F.named rfl fun hw => F.apPos hw
theorem F.apadd (o : ApOp) : F.Statement (.apadd o) := F.named rfl fun hw => F.apPos hw
theorem F.hopen (o : HdOp) : F.Statement (.hopen o) := F.fixed rfl (by decide)
theorem F.hopenChild (o : HdOp) : F.Statement (.hopenChild o) := F.fixed rfl (by decide)
theorem F.hpush (o : HdOp) : F.Statement (.hpush o) := F.fixed rfl (by decide)
theorem F.hpushRecord (b : Nat) : F.Statement (.hpushRecord b) := fun _ _ _ h => by cases h
theorem F.hpop (o : HdOp) : F.Statement (.hpop o) := F.fixed rfl (by decide)
theorem F.hpopCommit (b : Nat) : F.Statement (.hpopCommit b) := fun _ _ _ h => by cases h
theorem F.hmark (o : HdOp) : F.Statement (.hmark o) := F.fixed rfl (by decide)
theorem F.hmarkDrop (o : HdOp) : F.Statement (.hmarkDrop o) := F.fixed rfl (by decide)
theorem F.hcut (o : HdOp) : F.Statement (.hcut o) := F.fixed rfl (by decide)
theorem F.hsplit (o : HdOp) : F.Statement (.hsplit o) := F.fixed rfl (by decide)
theorem F.hseal (o : HdOp) : F.Statement (.hseal o) := F.fixed rfl (by decide)
theorem F.childArrival (b : Nat) : F.Statement (.childArrival b) := fun _ _ _ h => by cases h
theorem F.hjoin (o : HdOp) : F.Statement (.hjoin o) := F.fixed rfl (by decide)
theorem F.hjoinTimeout (b : Nat) : F.Statement (.hjoinTimeout b) := fun _ _ _ h => by cases h
theorem F.htbl (o : HdOp) : F.Statement (.htbl o) := F.fixed rfl (by decide)
theorem F.hstat (o : HdOp) : F.Statement (.hstat o) := F.fixed rfl (by decide)
theorem F.hflushDown (o : HdOp) : F.Statement (.hflushDown o) := F.fixed rfl (by decide)
theorem F.hflushUp (o : HdOp) : F.Statement (.hflushUp o) := F.fixed rfl (by decide)
theorem F.hclose (o : HdOp) : F.Statement (.hclose o) := F.fixed rfl (by decide)
theorem F.hcloseDiscard (o : HdOp) : F.Statement (.hcloseDiscard o) := F.fixed rfl (by decide)
theorem F.hodWindow (b : Nat) : F.Statement (.hodWindow b) := fun _ _ _ h => by cases h
theorem F.cpy (o : EnOp) : F.Statement (.cpy o) := F.fixed rfl (by decide)
theorem F.cpym (o : EnOp) : F.Statement (.cpym o) := F.fixed rfl (by decide)
theorem F.cpyd (o : EnOp) : F.Statement (.cpyd o) := F.fixed rfl (by decide)
theorem F.cpyv (o : EnOp) : F.Statement (.cpyv o) := F.fixed rfl (by decide)
theorem F.copyBeat (b : Nat) : F.Statement (.copyBeat b) := fun _ _ _ h => by cases h
theorem F.copyLineWrite (b : Nat) : F.Statement (.copyLineWrite b) := fun _ _ _ h => by cases h
theorem F.lsend (o : EnOp) : F.Statement (.lsend o) := F.fixed rfl (by decide)
theorem F.lrecv (o : EnOp) : F.Statement (.lrecv o) := F.fixed rfl (by decide)
theorem F.credF32 (o : EnOp) : F.Statement (.credF32 o) := F.fixed rfl (by decide)
theorem F.credBf16 (o : EnOp) : F.Statement (.credBf16 o) := F.fixed rfl (by decide)
theorem F.cbcast (o : EnOp) : F.Statement (.cbcast o) := F.fixed rfl (by decide)
theorem F.cgath (o : EnOp) : F.Statement (.cgath o) := F.fixed rfl (by decide)
theorem F.senderReadyCheck (b : Nat) : F.Statement (.senderReadyCheck b) := fun _ _ _ h => by cases h
theorem F.flitDeparture (b : Nat) : F.Statement (.flitDeparture b) := fun _ _ _ h => by cases h
theorem F.flitArrival (f : Flit) : F.Statement (.flitArrival f) := fun _ _ _ h => by cases h
theorem F.nakArrival (rank aOut : Nat) : F.Statement (.nakArrival rank aOut) := fun _ _ _ h => by cases h
theorem F.flitRetry (b : Nat) : F.Statement (.flitRetry b) := fun _ _ _ h => by cases h
theorem F.aaddI32 (o : EnOp) : F.Statement (.aaddI32 o) := F.fixed rfl (by decide)
theorem F.aaddF32 (o : EnOp) : F.Statement (.aaddF32 o) := F.fixed rfl (by decide)
theorem F.aaddBf16 (o : EnOp) : F.Statement (.aaddBf16 o) := F.fixed rfl (by decide)
theorem F.amaxI32 (o : EnOp) : F.Statement (.amaxI32 o) := F.fixed rfl (by decide)
theorem F.amaxF32 (o : EnOp) : F.Statement (.amaxF32 o) := F.fixed rfl (by decide)
theorem F.aminI32 (o : EnOp) : F.Statement (.aminI32 o) := F.fixed rfl (by decide)
theorem F.aminF32 (o : EnOp) : F.Statement (.aminF32 o) := F.fixed rfl (by decide)
theorem F.axor (o : EnOp) : F.Statement (.axor o) := F.fixed rfl (by decide)
theorem F.arowadd (o : EnOp) : F.Statement (.arowadd o) := F.fixed rfl (by decide)
theorem F.rowld (o : EnOp) : F.Statement (.rowld o) := F.fixed rfl (by decide)
theorem F.rowldf (o : EnOp) : F.Statement (.rowldf o) := F.fixed rfl (by decide)
theorem F.atomicEntry (b : Nat) : F.Statement (.atomicEntry b) := fun _ _ _ h => by cases h
theorem F.atomicApplication (ch : Nat) : F.Statement (.atomicApplication ch) := fun _ _ _ h => by cases h
theorem F.rowRead (b : Nat) : F.Statement (.rowRead b) := fun _ _ _ h => by cases h
theorem F.upd (o : EnOp) : F.Statement (.upd o) := F.fixed rfl (by decide)
theorem F.updStart (b : Nat) : F.Statement (.updStart b) := fun _ _ _ h => by cases h
theorem F.unorm (o : EnOp) : F.Statement (.unorm o) := F.fixed rfl (by decide)
theorem F.await (o : EnOp) : F.Statement (.await o) := F.fixed rfl (by decide)
theorem F.fencevOrder (o : EnOp) : F.Statement (.fencevOrder o) := F.fixed rfl (by decide)
theorem F.fencevDone (o : EnOp) : F.Statement (.fencevDone o) := F.fixed rfl (by decide)
theorem F.vstat (o : EnOp) : F.Statement (.vstat o) := F.fixed rfl (by decide)
theorem F.variableGranule (b v g : Nat) (d : Brought) : F.Statement (.variableGranule b v g d) := fun _ _ _ h => by cases h
theorem F.variableDone (b v : Nat) (e : VarEnd) : F.Statement (.variableDone b v e) := fun _ _ _ h => by cases h
theorem F.pageFault (b v code off : Nat) : F.Statement (.pageFault b v code off) := fun _ _ _ h => by cases h
theorem F.completionTimeout (b v : Nat) : F.Statement (.completionTimeout b v) := fun _ _ _ h => by cases h
theorem F.vprespResume (b v : Nat) : F.Statement (.vprespResume b v) := fun _ _ _ h => by cases h
theorem F.vprespAbort (b v : Nat) : F.Statement (.vprespAbort b v) := fun _ _ _ h => by cases h
theorem F.act (b r s : Nat) : F.Statement (.act b r s) := fun _ _ _ h => by cases h
theorem F.rd (b c : Nat) : F.Statement (.rd b c) := fun _ _ _ h => by cases h
theorem F.wr (b c e : Nat) : F.Statement (.wr b c e) := fun _ _ _ h => by cases h
theorem F.wrb (b c e : Nat) : F.Statement (.wrb b c e) := fun _ _ _ h => by cases h
theorem F.wrs (b c e p : Nat) : F.Statement (.wrs b c e p) := fun _ _ _ h => by cases h
theorem F.rdx (b c : Nat) : F.Statement (.rdx b c) := fun _ _ _ h => by cases h
theorem F.pre (b : Nat) : F.Statement (.pre b) := fun _ _ _ h => by cases h
theorem F.ref (b a : Nat) : F.Statement (.ref b a) := fun _ _ _ h => by cases h
theorem F.rsw (b : Nat) : F.Statement (.rsw b) := fun _ _ _ h => by cases h
theorem F.gap (n : Nat) : F.Statement (.gap n) := fun _ _ _ h => by cases h
theorem F.sync (f : Nat) : F.Statement (.sync f) := fun _ _ _ h => by cases h
theorem F.parityApplication (ch : Nat) : F.Statement (.parityApplication ch) := fun _ _ _ h => by cases h
theorem F.closingPre (ch : Nat) : F.Statement (.closingPre ch) := fun _ _ _ h => by cases h
theorem F.idleRefresh (ch : Nat) : F.Statement (.idleRefresh ch) := fun _ _ _ h => by cases h
theorem F.refreshMiss (ch : Nat) : F.Statement (.refreshMiss ch) := fun _ _ _ h => by cases h
theorem F.readReturnDrop (ch : Nat) : F.Statement (.readReturnDrop ch) := fun _ _ _ h => by cases h
theorem F.timelineStop (t : Nat) : F.Statement (.timelineStop t) := fun _ _ _ h => by cases h
theorem F.lossEvent (stack : Nat) (one : Option (Nat × Nat)) : F.Statement (.lossEvent stack one) := fun _ _ _ h => by cases h
theorem F.rbmarkWrite (ch v : Nat) : F.Statement (.rbmarkWrite ch v) := fun _ _ _ h => by cases h
theorem F.bpladdWrite (stack ch bank row : Nat) : F.Statement (.bpladdWrite stack ch bank row) := fun _ _ _ h => by cases h
theorem F.faqpopRead (upper : Bool) : F.Statement (.faqpopRead upper) := fun _ _ _ h => by cases h
theorem F.tornpopRead (upper : Bool) : F.Statement (.tornpopRead upper) := fun _ _ _ h => by cases h
theorem F.ydcecntRead (die : Nat) : F.Statement (.ydcecntRead die) := fun _ _ _ h => by cases h
theorem F.lnkretryRead (port : Nat) : F.Statement (.lnkretryRead port) := fun _ _ _ h => by cases h
theorem F.admitRead (n : Nat) : F.Statement (.admitRead n) := fun _ _ _ h => by cases h
theorem F.fcolWrite (k v : Nat) : F.Statement (.fcolWrite k v) := fun _ _ _ h => by cases h
theorem F.hodcolWrite (k v : Nat) : F.Statement (.hodcolWrite k v) := fun _ _ _ h => by cases h
theorem F.savcolWrite (k v : Nat) : F.Statement (.savcolWrite k v) := fun _ _ _ h => by cases h
theorem F.rangeEntryWrite (k i r v : Nat) : F.Statement (.rangeEntryWrite k i r v) := fun _ _ _ h => by cases h
theorem F.mcwinWrite (die w v : Nat) : F.Statement (.mcwinWrite die w v) := fun _ _ _ h => by cases h
theorem F.partitionChange (k : Nat) (bricks : List Nat) : F.Statement (.partitionChange k bricks) := fun _ _ _ h => by cases h
theorem F.registerWrite (agent : Nat) (r : MasonReg) (v : Nat) : F.Statement (.registerWrite agent r v) := fun _ _ _ h => by cases h
theorem F.drerelMarker (m f : Nat) : F.Statement (.drerelMarker m f) := fun _ _ _ h => by cases h
theorem F.markerLoss (rank : Nat) : F.Statement (.markerLoss rank) := fun _ _ _ h => by cases h
theorem F.linkLoss (port rank : Nat) : F.Statement (.linkLoss port rank) := fun _ _ _ h => by cases h
theorem F.slipNotice (up : Bool) (n : Notice) : F.Statement (.slipNotice up n) := fun _ _ _ h => by cases h
theorem F.pathCalibration (paths : List (Nat × Nat × Nat)) (parent : TreeParent) (first : FirstMarker) : F.Statement (.pathCalibration paths parent first) := fun _ _ _ h => by cases h
theorem F.launch (port : Nat) (ws : List (BitVec 64)) : F.Statement (.launch port ws) := fun _ _ _ h => by cases h
theorem F.preemptionRequest (port : Nat) (ws : List (BitVec 64)) : F.Statement (.preemptionRequest port ws) := fun _ _ _ h => by cases h
theorem F.sliceBoundary (k : Nat) : F.Statement (.sliceBoundary k) := fun _ _ _ h => by cases h
theorem F.takePoint (t : Nat) : F.Statement (.takePoint t) := fun _ _ _ h => by cases h
theorem F.forcedPreemption (b : Nat) : F.Statement (.forcedPreemption b) := fun _ _ _ h => by cases h
theorem F.taskStart (t : Nat) : F.Statement (.taskStart t) := fun _ _ _ h => by cases h
theorem F.trapPoint (b : Nat) : F.Statement (.trapPoint b) := fun _ _ _ h => by cases h
theorem F.brkctlResume (b : Nat) : F.Statement (.brkctlResume b) := fun _ _ _ h => by cases h
theorem F.brkctlEnd (b : Nat) : F.Statement (.brkctlEnd b) := fun _ _ _ h => by cases h
theorem F.brkctlPark (b : Nat) : F.Statement (.brkctlPark b) := fun _ _ _ h => by cases h
theorem F.reset (img : Firmware) : F.Statement (.reset img) := fun _ _ _ h => by cases h
theorem F.memoryInitialisation (t : MemoryTables) : F.Statement (.memoryInitialisation t) := fun _ _ _ h => by cases h
theorem F.hsemRead (agents : List Nat) : F.Statement (.hsemRead agents) := fun _ _ _ h => by cases h
theorem F.hsemWrite (agent v : Nat) : F.Statement (.hsemWrite agent v) := fun _ _ _ h => by cases h
theorem F.powerFrame (watts : Nat) : F.Statement (.powerFrame watts) := fun _ _ _ h => by cases h
theorem F.clampHalt (inlet flow junction : Nat) : F.Statement (.clampHalt inlet flow junction) := fun _ _ _ h => by cases h
theorem F.flitAbsent (b : Nat) : F.Statement (.flitAbsent b) := fun _ _ _ h => by cases h
theorem F.retrySlotEnd (b : Nat) : F.Statement (.retrySlotEnd b) := fun _ _ _ h => by cases h
theorem F.stateWindowWrite (b : Nat) (e : WindowEdit) : F.Statement (.stateWindowWrite b e) := fun _ _ _ h => by cases h
theorem F.savebaseWrite (v : Nat) : F.Statement (.savebaseWrite v) := fun _ _ _ h => by cases h
theorem F.measurementExtend (i : Nat) (v : BitVec 256) : F.Statement (.measurementExtend i v) := fun _ _ _ h => by cases h
theorem F.takeWindowEnd : F.Statement (.takeWindowEnd) := fun _ _ _ h => by cases h
theorem F.vpinv : F.Statement (.vpinv) := fun _ _ _ h => by cases h
theorem F.prea : F.Statement (.prea) := fun _ _ _ h => by cases h
theorem F.courseCycleTick : F.Statement (.courseCycleTick) := fun _ _ _ h => by cases h
theorem F.drerelMarkerSend : F.Statement (.drerelMarkerSend) := fun _ _ _ h => by cases h
theorem F.admlockWrite : F.Statement (.admlockWrite) := fun _ _ _ h => by cases h
theorem F.attgo : F.Statement (.attgo) := fun _ _ _ h => by cases h

end Sys2Proof.Laws
end

