-- ==== Sys2Proof/Tests/Slice0.lean ====
section
/-! SUPPORT. Tests. Words of the spec and words written out from its layouts decode; ill-formed terms are refused; examples of the
spec hold; the hypotheses of every statement are met by a state. -/

namespace Sys2Proof.Tests

open Sys2Proof Sys2Proof.Machine Sys2Proof.Rules

/-- The scalar operations (R34, R37, R60, R192 to R198). -/
theorem test_decode_scalar : ∀ p ∈ ([
    (1, 0x000040FC05000000, .movI64 ⟨1, ⟨false, false, 0, 0⟩, .reg 63, .reg 20, .reg 0, 0⟩),
    (2, 0xC08080FA805C0400, .addI64 ⟨2, ⟨true, true, 0, 1⟩, .reg 62, .imm 513, .loop 1, 0⟩),
    (1, 0x4100C0F540005800, .subI64 ⟨1, ⟨false, true, 0, 2⟩, .reg 61, .slatch 0, .reg 22, 0⟩),
    (2, 0x000100F1C0E80C00, .and ⟨2, ⟨false, false, 0, 0⟩, .reg 60, .loop 3, .imm 515, 0⟩),
    (1, 0x420140EC06140000, .or ⟨1, ⟨false, true, 0, 4⟩, .reg 59, .reg 24, .slatch 0, 0⟩),
    (2, 0xC28180EA815C1400, .xor ⟨2, ⟨true, true, 0, 5⟩, .reg 58, .imm 517, .loop 5, 0⟩),
    (1, 0x0001C0E540006800, .shl ⟨1, ⟨false, false, 0, 0⟩, .reg 57, .slatch 0, .reg 26, 0⟩),
    (2, 0xC38200E1C0681C00, .shr ⟨2, ⟨true, true, 0, 7⟩, .reg 56, .loop 1, .imm 519, 0⟩),
    (1, 0x440240DC07140000, .sar ⟨1, ⟨false, true, 0, 8⟩, .reg 55, .reg 28, .slatch 0, 0⟩),
    (2, 0x000280DA825C0C01, .minI64 ⟨2, ⟨false, false, 0, 0⟩, .reg 54, .imm 521, .loop 3, 1⟩),
    (1, 0x4502C0D540007801, .maxI64 ⟨1, ⟨false, true, 0, 10⟩, .reg 53, .slatch 0, .reg 30, 1⟩),
    (2, 0xC58300D1C1682C00, .mulI64 ⟨2, ⟨true, true, 0, 11⟩, .reg 52, .loop 5, .imm 523, 0⟩),
    (1, 0x000340CC08140001, .mulhI64 ⟨1, ⟨false, false, 0, 0⟩, .reg 51, .reg 32, .slatch 0, 1⟩),
    (2, 0xC684387E835C0400, .cmpeqI64 ⟨2, ⟨true, true, 0, 13⟩, .pred true 15, .imm 525, .loop 1, 0⟩),
    (1, 0x4704784540008800, .cmpneI64 ⟨1, ⟨false, true, 0, 14⟩, .pred true 1, .slatch 0, .reg 34, 0⟩),
    (2, 0x0004B849C0E83C01, .cmpltI64 ⟨2, ⟨false, false, 0, 0⟩, .pred true 2, .loop 3, .imm 527, 1⟩),
    (1, 0x4004F84C09140001, .cmpleI64 ⟨1, ⟨false, true, 0, 0⟩, .pred true 3, .reg 36, .slatch 0, 1⟩),
    (2, 0xC085385386387000, .qand ⟨2, ⟨true, true, 0, 1⟩, .pred true 4, .pred true 8, .pred true 12, 0⟩),
    (1, 0x0005785786787400, .qor ⟨1, ⟨false, false, 0, 0⟩, .pred true 5, .pred true 9, .pred true 13, 0⟩),
    (2, 0xC185B85B86B87800, .qxor ⟨2, ⟨true, true, 0, 3⟩, .pred true 6, .pred true 10, .pred true 14, 0⟩),
    (1, 0x4205F85F86C00000, .qnot ⟨1, ⟨false, true, 0, 4⟩, .pred true 7, .pred true 11, .reg 0, 0⟩),
    (2, 0x000600AA8560A415, .bfx ⟨2, ⟨false, false, 0, 0⟩, .reg 42, .imm 533, .imm 41, 21⟩),
    (1, 0x430640A54020A03F, .bfi ⟨1, ⟨false, true, 0, 6⟩, .reg 41, .slatch 0, .imm 40, 63⟩),
    (2, 0xC38680A1C1400000, .popc ⟨2, ⟨true, true, 0, 7⟩, .reg 40, .loop 5, .reg 0, 0⟩),
    (1, 0x0006C09C0B000000, .clz ⟨1, ⟨false, false, 0, 0⟩, .reg 39, .reg 44, .reg 0, 0⟩),
    (2, 0xC488009A865C0405, .ld ⟨2, ⟨true, true, 0, 9⟩, .reg 38, .imm 537, .loop 1, 5⟩),
    (1, 0x450840014000B803, .st ⟨1, ⟨false, true, 0, 10⟩, .reg 0, .slatch 0, .reg 46, 3⟩),
    (2, 0x000C009000000020, .mfsr ⟨2, ⟨false, false, 0, 0⟩, .reg 36, .reg 0, .reg 0, 32⟩),
    (1, 0x460C40000C000029, .mtsr ⟨1, ⟨false, true, 0, 12⟩, .reg 0, .reg 48, .reg 0, 41⟩),
    (2, 0xC68D008800000005, .wid ⟨2, ⟨true, true, 0, 13⟩, .reg 34, .reg 0, .reg 0, 5⟩)] : List (Nat × Nat × Instr)), decodeSlot p.1 p.2.1 = some p.2.2 := by decide

/-- The X units (R61, R205, R206, R208, R226); a type letter stands at one of its codes (R57). -/
theorem test_decode_x : ∀ p ∈ ([
    (3, 0x00004FFCFA000000, .vmov ⟨3, ⟨false, false, 0, 0⟩, .reg 1023, .reg 1000, .reg 0, 0⟩),
    (6, 0x40810FF90A1C0400, .vand ⟨6, ⟨false, true, 0, 1⟩, .reg 1022, .latch 1 1, .loop 1, 0⟩),
    (9, 0x91014FF580AAF800, .vor ⟨9, ⟨true, false, 2, 2⟩, .reg 1021, .tap false 2, .imm 702, 0⟩),
    (12, 0x00018FF1A18FAC00, .vxor ⟨12, ⟨false, false, 0, 0⟩, .reg 1020, .tap true 6, .reg 1003, 0⟩),
    (15, 0xA201CFEDC1122000, .vandn ⟨15, ⟨true, false, 4, 4⟩, .reg 1019, .loop 4, .latch 4 1, 0⟩),
    (18, 0x42828FEAB0581400, .vshlT .i16 ⟨18, ⟨false, true, 0, 5⟩, .reg 1018, .imm 705, .tap false 5, 0⟩),
    (21, 0x00030FE4FB9A2401, .vshrT .i8 ⟨21, ⟨false, false, 0, 0⟩, .reg 1017, .reg 1006, .tap true 9, 1⟩),
    (24, 0x43844FE13A1C0400, .vaddT .i32 ⟨24, ⟨false, true, 0, 7⟩, .reg 1016, .latch 7 1, .loop 1, 0⟩),
    (3, 0x84058FDD822B1003, .vsubT .i16 ⟨3, ⟨true, false, 0, 8⟩, .reg 1015, .tap false 8, .imm 708, 3⟩),
    (6, 0x00060FD9A30FC401, .vminT .i8 ⟨6, ⟨false, false, 0, 0⟩, .reg 1014, .tap true 12, .reg 1009, 1⟩),
    (9, 0x95074FD5C1112001, .vmaxT .i32 ⟨9, ⟨true, false, 2, 10⟩, .reg 1013, .loop 4, .latch 2 1, 1⟩),
    (12, 0x4588B836B1D82C00, .vcmpeqT .i16 ⟨12, ⟨false, true, 0, 11⟩, .pred false 13, .imm 711, .tap false 11, 0⟩),
    (15, 0x00093838FD1A3C01, .vcmpltT .i8 ⟨15, ⟨false, false, 0, 0⟩, .pred false 14, .reg 1012, .tap true 15, 1⟩),
    (18, 0x468A783D2A1C0401, .vcmpleT .i32 ⟨18, ⟨false, true, 0, 13⟩, .pred false 15, .latch 5 1, .loop 1, 1⟩),
    (21, 0xB70B0FC583AB280F, .vsel ⟨21, ⟨true, false, 6, 14⟩, .reg 1009, .tap false 14, .imm 714, 15⟩),
    (24, 0x000C380B81B82800, .pand ⟨24, ⟨false, false, 0, 0⟩, .pred false 2, .pred false 6, .pred false 10, 0⟩),
    (3, 0x800C780F81F82C00, .por ⟨3, ⟨true, false, 0, 0⟩, .pred false 3, .pred false 7, .pred false 11, 0⟩),
    (6, 0x408CB81382383000, .pxor ⟨6, ⟨false, true, 0, 1⟩, .pred false 4, .pred false 8, .pred false 12, 0⟩),
    (9, 0x000CF81782400000, .pnot ⟨9, ⟨false, false, 0, 0⟩, .pred false 5, .pred false 9, .reg 0, 0⟩),
    (12, 0x41904FB1A191A000, .vaddF true ⟨12, ⟨false, true, 0, 3⟩, .reg 1004, .tap true 6, .latch 3 1, 0⟩),
    (15, 0xA2108FACB4181000, .vsubF false ⟨15, ⟨true, false, 4, 4⟩, .reg 1003, .reg 720, .tap false 4, 0⟩),
    (18, 0x00114FA9281A2000, .vminF true ⟨18, ⟨false, false, 0, 0⟩, .reg 1002, .latch 5 0, .tap true 8, 0⟩),
    (21, 0xB3118FA5818B4800, .vmaxF false ⟨21, ⟨true, false, 6, 6⟩, .reg 1001, .tap false 6, .reg 722, 0⟩),
    (24, 0x43927829A293C000, .vcmpeqF true ⟨24, ⟨false, true, 0, 7⟩, .pred false 10, .tap true 10, .latch 7 2, 0⟩),
    (3, 0x0012B82CB5182000, .vcmpltF false ⟨3, ⟨false, false, 0, 0⟩, .pred false 11, .reg 724, .tap false 8, 0⟩),
    (6, 0x449378310A1A3000, .vcmpleF true ⟨6, ⟨false, true, 0, 9⟩, .pred false 12, .latch 1 1, .tap true 12, 0⟩),
    (9, 0x95138F9582800000, .vabsF false ⟨9, ⟨true, false, 2, 10⟩, .reg 997, .tap false 10, .reg 0, 0⟩),
    (12, 0x00180F91A3A00410, .vcvt ⟨12, ⟨false, false, 0, 0⟩, .reg 996, .tap true 14, .imm 1, 16⟩)] : List (Nat × Nat × Instr)), decodeSlot p.1 p.2.1 = some p.2.2 := by decide

/-- The Y units (R62, R209). -/
theorem test_decode_y : ∀ p ∈ ([
    (4, 0x00040FFCAF180000, .vmulF32 ⟨4, ⟨false, false, 0, 0⟩, .reg 1023, .reg 700, .tap false 0, 0⟩),
    (7, 0x40844FF90A1A1000, .vmulBf16 ⟨7, ⟨false, true, 0, 1⟩, .reg 1022, .latch 1 1, .tap true 4, 0⟩),
    (10, 0x91048FF5808AF800, .vfmaF32 ⟨10, ⟨true, false, 2, 2⟩, .reg 1021, .tap false 2, .reg 702, 0⟩),
    (13, 0x0004CFF1A1918000, .vfmaBf16 ⟨13, ⟨false, false, 0, 0⟩, .reg 1020, .tap true 6, .latch 3 0, 0⟩),
    (16, 0xA2050FECB0181000, .vfmsF32 ⟨16, ⟨true, false, 4, 4⟩, .reg 1019, .reg 704, .tap false 4, 0⟩),
    (19, 0x42860FE92C1A2000, .vfmaF64 ⟨19, ⟨false, true, 0, 5⟩, .reg 1018, .latch 5 2, .tap true 8, 0⟩),
    (22, 0x00064FE5818B0800, .vmulF64 ⟨22, ⟨false, false, 0, 0⟩, .reg 1017, .tap false 6, .reg 706, 0⟩),
    (25, 0x43868FE1A293A000, .vaddF64 ⟨25, ⟨false, true, 0, 7⟩, .reg 1016, .tap true 10, .latch 7 1, 0⟩),
    (4, 0x84080FDD822B1000, .vmulI32 ⟨4, ⟨true, false, 0, 8⟩, .reg 1015, .tap false 8, .imm 708, 0⟩),
    (7, 0x00084FD9A30FC401, .vmulhI32 ⟨7, ⟨false, false, 0, 0⟩, .reg 1014, .tap true 12, .reg 1009, 1⟩),
    (10, 0x95088FD5C1112001, .vdotI8 ⟨10, ⟨true, false, 2, 10⟩, .reg 1013, .loop 4, .latch 2 1, 1⟩),
    (13, 0x4588CFD2B1D82C01, .vdotI16 ⟨13, ⟨false, true, 0, 11⟩, .reg 1012, .imm 711, .tap false 11, 1⟩)] : List (Nat × Nat × Instr)), decodeSlot p.1 p.2.1 = some p.2.2 := by decide

/-- The Z units (R63, R210 to R214, R163, R164). -/
theorem test_decode_z : ∀ p ∈ ([
    (5, 0x00004FFCFA00003F, .vshuf ⟨5, ⟨false, false, 0, 0⟩, .reg 1023, .reg 1000, .reg 0, 63⟩),
    (8, 0x4080800000000000, .vhbswap ⟨8, ⟨false, true, 0, 1⟩, .reg 0, .reg 0, .reg 0, 0⟩),
    (11, 0x9100C0018080003F, .vhbld ⟨11, ⟨true, false, 2, 2⟩, .reg 0, .tap false 2, .reg 0, 63⟩),
    (14, 0x00020FF1A18FAC15, .vshaddI32 ⟨14, ⟨false, false, 0, 0⟩, .reg 1020, .tap true 6, .reg 1003, 21⟩),
    (17, 0xA2024FECB018103F, .vshaddF32 ⟨17, ⟨true, false, 4, 4⟩, .reg 1019, .reg 704, .tap false 4, 63⟩),
    (20, 0x42828FE92C1A2015, .vshmaxF32 ⟨20, ⟨false, true, 0, 5⟩, .reg 1018, .latch 5 2, .tap true 8, 21⟩),
    (23, 0x0002CFE5818B083F, .vshminF32 ⟨23, ⟨false, false, 0, 0⟩, .reg 1017, .tap false 6, .reg 706, 63⟩),
    (26, 0x43830FE1A293A015, .vshaddBf16 ⟨26, ⟨false, true, 0, 7⟩, .reg 1016, .tap true 10, .latch 7 1, 21⟩),
    (5, 0x84040FDCB1000000, .vrcpF32 ⟨5, ⟨true, false, 0, 8⟩, .reg 1015, .reg 708, .reg 0, 0⟩),
    (8, 0x00044FD908000000, .vrsqF32 ⟨8, ⟨false, false, 0, 0⟩, .reg 1014, .latch 1 0, .reg 0, 0⟩),
    (11, 0x95048FD582800000, .vexp2F32 ⟨11, ⟨true, false, 2, 10⟩, .reg 1013, .tap false 10, .reg 0, 0⟩),
    (14, 0x4584CFD1A3800000, .vlog2F32 ⟨14, ⟨false, true, 0, 11⟩, .reg 1012, .tap true 14, .reg 0, 0⟩),
    (17, 0x00060FCCB2183000, .vdivF32 ⟨17, ⟨false, false, 0, 0⟩, .reg 1011, .reg 712, .tap false 12, 0⟩),
    (20, 0x46864FC92A000000, .vsqrtF32 ⟨20, ⟨false, true, 0, 13⟩, .reg 1010, .latch 5 1, .reg 0, 0⟩),
    (23, 0xB7080FC583800007, .vxc ⟨23, ⟨true, false, 6, 14⟩, .reg 1009, .tap false 14, .reg 0, 7⟩),
    (26, 0x00090FC183C00000, .vtap ⟨26, ⟨false, false, 0, 0⟩, .reg 1008, .tap false 15, .reg 0, 0⟩),
    (5, 0x80094001C100001F, .vput ⟨5, ⟨true, false, 0, 0⟩, .reg 0, .loop 4, .reg 0, 31⟩)] : List (Nat × Nat × Instr)), decodeSlot p.1 p.2.1 = some p.2.2 := by decide

/-- The matrix engine (R65, R237 to R248). -/
theorem test_decode_mx : ∀ p ∈ ([
    (35, 0x0000741702303000, .mma ⟨35, ⟨false, false, 0, 0⟩, .acc 5, .om 8, .om 12, 0⟩),
    (35, 0x4080B41B02303020, .mmat ⟨35, ⟨false, true, 0, 1⟩, .acc 6, .om 8, .om 12, 32⟩),
    (35, 0x0000F41C00000000, .mzero ⟨35, ⟨false, false, 0, 0⟩, .acc 7, .reg 0, .reg 0, 0⟩),
    (35, 0x4181301342000000, .mdrain ⟨35, ⟨false, true, 0, 3⟩, .om 4, .acc 8, .reg 0, 0⟩),
    (35, 0x0001701000000000, .mclaim ⟨35, ⟨false, false, 0, 0⟩, .om 4, .reg 0, .reg 0, 0⟩),
    (35, 0x4281B01000000000, .mrel ⟨35, ⟨false, true, 0, 5⟩, .om 4, .reg 0, .reg 0, 0⟩),
    (35, 0x0001F011A1C00002, .moml ⟨35, ⟨false, false, 0, 0⟩, .om 4, .tap true 7, .reg 0, 2⟩)] : List (Nat × Nat × Instr)), decodeSlot p.1 p.2.1 = some p.2.2 := by decide

/-- The ring blocks (R55, R64, R159). -/
theorem test_decode_ring : ∀ p ∈ ([
    (27, 0xC1005200FFFE0000, .mrd ⟨27, ⟨true, true, 0, 2⟩, false, 9, .reg 7, 4095, 0⟩),
    (28, 0xC180B57D1FFC0000, .mwr ⟨28, ⟨true, true, 0, 3⟩, true, 10, .imm 1000, 4094, 0⟩),
    (29, 0xC200D6E07FFA003F, .mrdt ⟨29, ⟨true, true, 0, 4⟩, false, 11, .loop 3, 4093, 63⟩),
    (30, 0xC28138015FF800A5, .mwrm ⟨30, ⟨true, true, 0, 5⟩, true, 12, .reg 10, 4092, 165⟩),
    (31, 0xC301417D1FF60011, .mstag ⟨31, ⟨true, true, 0, 6⟩, false, 0, .imm 1000, 4091, 17⟩)] : List (Nat × Nat × Instr)), decodeSlot p.1 p.2.1 = some p.2.2 := by decide

/-- The accumulator ports (R55, R66, R242). -/
theorem test_decode_ap : ∀ p ∈ ([
    (36, 0x410074160FDB8000, .aprd ⟨36, ⟨false, true, 0, 2⟩, .acc 5, .imm 63, false, 13, 3⟩),
    (37, 0x4180B41800FD0000, .apwr ⟨37, ⟨false, true, 0, 3⟩, .acc 6, .reg 3, true, 14, 2⟩),
    (36, 0x4200F41DC15E8000, .apadd ⟨36, ⟨false, true, 0, 4⟩, .acc 7, .loop 5, false, 15, 1⟩)] : List (Nat × Nat × Instr)), decodeSlot p.1 p.2.1 = some p.2.2 := by decide

/-- The Hod (R55, R67, R269). -/
theorem test_decode_hd : ∀ p ∈ ([
    (38, 0x000040000001F000, .hopen ⟨⟨false, false, 0, 0⟩, false, 0, 0, 31, 0, 0⟩),
    (38, 0x0000400000C47001, .hopenChild ⟨⟨false, false, 0, 0⟩, false, 0, 49, 7, 0, 1⟩),
    (38, 0x00008400041FF031, .hpush ⟨⟨false, false, 0, 0⟩, false, 2, 263, 63, 3, 1⟩),
    (38, 0x0000EA03FFFFE3FF, .hpop ⟨⟨false, false, 0, 0⟩, true, 5, 65535, 62, 63, 15⟩),
    (38, 0x4101000000240000, .hmark ⟨⟨false, true, 0, 2⟩, false, 0, 9, 0, 0, 0⟩),
    (38, 0x0001000000240001, .hmarkDrop ⟨⟨false, false, 0, 0⟩, false, 0, 9, 0, 0, 1⟩),
    (38, 0x0001400200040000, .hcut ⟨⟨false, false, 0, 0⟩, false, 0, 32769, 0, 0, 0⟩),
    (38, 0x0001800000C43000, .hsplit ⟨⟨false, false, 0, 0⟩, false, 0, 49, 3, 0, 0⟩),
    (38, 0x0001C00001140000, .hseal ⟨⟨false, false, 0, 0⟩, false, 0, 69, 0, 0, 0⟩),
    (38, 0x0002000000C40000, .hjoin ⟨⟨false, false, 0, 0⟩, false, 0, 49, 0, 0, 0⟩),
    (38, 0x000250000000003C, .htbl ⟨⟨false, false, 0, 0⟩, false, 8, 0, 0, 3, 12⟩),
    (38, 0x0002BE0000000000, .hstat ⟨⟨false, false, 0, 0⟩, true, 15, 0, 0, 0, 0⟩),
    (38, 0x0002C0001FFC7000, .hflushDown ⟨⟨false, false, 0, 0⟩, false, 0, 2047, 7, 0, 0⟩),
    (38, 0x0002C00001147001, .hflushUp ⟨⟨false, false, 0, 0⟩, false, 0, 69, 7, 0, 1⟩),
    (38, 0x0003000000000000, .hclose ⟨⟨false, false, 0, 0⟩, false, 0, 0, 0, 0, 0⟩),
    (38, 0x0003000000000001, .hcloseDiscard ⟨⟨false, false, 0, 0⟩, false, 0, 0, 0, 0, 1⟩)] : List (Nat × Nat × Instr)), decodeSlot p.1 p.2.1 = some p.2.2 := by decide

/-- The engine slot (R55, R68). -/
theorem test_decode_en : ∀ p ∈ ([
    (39, 0x00040022003FFFFF, .cpy ⟨⟨false, false, 0, 0⟩, .reg 8, .imm 0, 4194303⟩),
    (39, 0x40844026007FFFFE, .cpym ⟨⟨false, true, 0, 1⟩, .reg 9, .imm 1, 4194302⟩),
    (39, 0x0004802A00BFFFFD, .cpyd ⟨⟨false, false, 0, 0⟩, .reg 10, .imm 2, 4194301⟩),
    (39, 0x4184C02C000007FF, .cpyv ⟨⟨false, true, 0, 3⟩, .reg 11, .reg 0, 2047⟩),
    (39, 0x00080032013FFFFB, .lsend ⟨⟨false, false, 0, 0⟩, .reg 12, .imm 4, 4194299⟩),
    (39, 0x42884036017FFFFA, .lrecv ⟨⟨false, true, 0, 5⟩, .reg 13, .imm 5, 4194298⟩),
    (39, 0x000C003A01BFFFF9, .credF32 ⟨⟨false, false, 0, 0⟩, .reg 14, .imm 6, 4194297⟩),
    (39, 0x438C403E01FFFFF8, .credBf16 ⟨⟨false, true, 0, 7⟩, .reg 15, .imm 7, 4194296⟩),
    (39, 0x000C8042003FFFF7, .cbcast ⟨⟨false, false, 0, 0⟩, .reg 16, .imm 0, 4194295⟩),
    (39, 0x448CC046007FFFF6, .cgath ⟨⟨false, true, 0, 9⟩, .reg 17, .imm 1, 4194294⟩),
    (39, 0x0010004A00BFFFF5, .upd ⟨⟨false, false, 0, 0⟩, .reg 18, .imm 2, 4194293⟩),
    (39, 0x4590404E00FFFFF4, .unorm ⟨⟨false, true, 0, 11⟩, .reg 19, .imm 3, 4194292⟩),
    (39, 0x00140052013FFFF3, .aaddI32 ⟨⟨false, false, 0, 0⟩, .reg 20, .imm 4, 4194291⟩),
    (39, 0x46944056017FFFF2, .aaddF32 ⟨⟨false, true, 0, 13⟩, .reg 21, .imm 5, 4194290⟩),
    (39, 0x0014805A01BFFFF1, .aaddBf16 ⟨⟨false, false, 0, 0⟩, .reg 22, .imm 6, 4194289⟩),
    (39, 0x4794C05E01FFFFF0, .amaxI32 ⟨⟨false, true, 0, 15⟩, .reg 23, .imm 7, 4194288⟩),
    (39, 0x00150062003FFFEF, .amaxF32 ⟨⟨false, false, 0, 0⟩, .reg 24, .imm 0, 4194287⟩),
    (39, 0x40954066007FFFEE, .aminI32 ⟨⟨false, true, 0, 1⟩, .reg 25, .imm 1, 4194286⟩),
    (39, 0x0015806A00BFFFED, .aminF32 ⟨⟨false, false, 0, 0⟩, .reg 26, .imm 2, 4194285⟩),
    (39, 0x4195C06E00FFFFEC, .axor ⟨⟨false, true, 0, 3⟩, .reg 27, .imm 3, 4194284⟩),
    (39, 0x00160072013FFFEB, .arowadd ⟨⟨false, false, 0, 0⟩, .reg 28, .imm 4, 4194283⟩),
    (39, 0x42964076017FFFEA, .rowld ⟨⟨false, true, 0, 5⟩, .reg 29, .imm 5, 4194282⟩),
    (39, 0x0016807A01BFFFE9, .rowldf ⟨⟨false, false, 0, 0⟩, .reg 30, .imm 6, 4194281⟩),
    (39, 0x439800000000001F, .await ⟨⟨false, true, 0, 7⟩, .reg 0, .reg 0, 31⟩),
    (39, 0x0018400000000000, .fencevOrder ⟨⟨false, false, 0, 0⟩, .reg 0, .reg 0, 0⟩),
    (39, 0x4498400000000001, .fencevDone ⟨⟨false, true, 0, 9⟩, .reg 0, .reg 0, 1⟩),
    (39, 0x001880FC00000045, .vstat ⟨⟨false, false, 0, 0⟩, .reg 63, .reg 0, 69⟩)] : List (Nat × Nat × Instr)), decodeSlot p.1 p.2.1 = some p.2.2 := by decide

/-- The sequencer (R55, R59, R176 to R189). -/
theorem test_decode_ctl : ∀ p ∈ ([
    (0, 0xC0004003FFFFFFC0, .branch ⟨⟨true, true, 0, 0⟩, .reg 0, 17179869120⟩),
    (0, 0xC080C04400000000, .branchReg ⟨⟨true, true, 0, 1⟩, .reg 17, 0⟩),
    (0, 0xC101000006000821, .call ⟨⟨true, true, 0, 2⟩, .reg 0, 100665377⟩),
    (0, 0x0002201010206003, .loop ⟨⟨false, false, 0, 0⟩, .imm 4, 270557187⟩),
    (0, 0xC202400000000006, .lbrk ⟨⟨true, true, 0, 4⟩, .reg 0, 6⟩),
    (0, 0xC28400003FFFFFE7, .setstep ⟨⟨true, true, 0, 5⟩, .reg 0, 1073741799⟩),
    (0, 0xC30478500003FFFF, .rot ⟨⟨true, true, 0, 6⟩, .pred true 4, 262143⟩),
    (0, 0xC3848000001FFFFF, .rotset ⟨⟨true, true, 0, 7⟩, .reg 0, 2097151⟩),
    (0, 0x0006000018000190, .settle ⟨⟨false, false, 0, 0⟩, .reg 0, 402653584⟩),
    (0, 0x0006400000000800, .yield ⟨⟨false, false, 0, 0⟩, .reg 0, 2048⟩),
    (0, 0xC506800000000007, .drift ⟨⟨true, true, 0, 10⟩, .reg 0, 7⟩),
    (0, 0xC586C0000000FFFF, .trap ⟨⟨true, true, 0, 11⟩, .reg 0, 65535⟩),
    (0, 0xC60700F800000000, .ppop ⟨⟨true, true, 0, 12⟩, .reg 62, 0⟩),
    (0, 0xC687400000000000, .endTask ⟨⟨true, true, 0, 13⟩, .reg 0, 0⟩)] : List (Nat × Nat × Instr)), decodeSlot p.1 p.2.1 = some p.2.2 := by decide
/-- The timeline commands (R82, and the words of R91). -/
theorem test_decode_timeline : ∀ p ∈ ([
    (0x10A1F440, .act 5 1000 1), (0x20B00000, .rd 5 2), (0x30BA2000, .wr 5 3 17), (0x49E7E000, .wrb 79 0 63),
    (0x50B81000, .wrs 5 3 0 1), (0x60A80000, .rdx 5 1), (0x70A00000, .pre 5), (0x80000000, .prea), (0x90100000, .ref 0 1),
    (0xA1200000, .rsw 9), (0xB0000008, .gap 8), (0xC0000100, .sync 256)] : List (Nat × Instr)),
    decodeTimeline p.1 = some p.2 := by decide

/-- No guard, a scalar predicate's, a cluster predicate's. -/
def g0 : Guard := ⟨false, false, 0, 0⟩
def gq (inv : Bool) (i : Nat) : Guard := ⟨inv, true, 0, i⟩
def gp (inv : Bool) (c i : Nat) : Guard := ⟨inv, false, c, i⟩

/-- Words that the spec's examples write out: the sequencer and the scalar units (R180 to R198, the assembly examples). -/
theorem test_words_scalar : ∀ p ∈ ([
    (0, 0x000100000000083F, .call ⟨g0, .reg 0, 0x83F⟩), (0, 0x0002201010206003, .loop ⟨g0, .imm 4, 0x10206003⟩),
    (0, 0x0002001869202007, .loop ⟨g0, .reg 6, 0x69202007⟩), (0, 0x000400000080804C, .setstep ⟨g0, .reg 0, 0x80804C⟩),
    (0, 0x0004784400020101, .rot ⟨g0, .pred true 1, 0x20101⟩), (0, 0x0006000008000600, .settle ⟨g0, .reg 0, 1536 + 8 * 2 ^ 24⟩),
    (0, 0x0006400000000800, .yield ⟨g0, .reg 0, 2048⟩), (0, 0x0006800000000007, .drift ⟨g0, .reg 0, 7⟩),
    (0, 0x8086C00000000001, .trap ⟨gp true 0 1, .reg 0, 1⟩), (0, 0x0007400000000000, .endTask ⟨g0, .reg 0, 0⟩),
    (1, 0x41008018015C0400, .addI64 ⟨1, gq false 2, .reg 6, .reg 5, .loop 1, 0⟩),
    (2, 0x0001C01801A02400, .shl ⟨2, g0, .reg 6, .reg 6, .imm 9, 0⟩), (1, 0x0004B84800E02800, .cmpltI64 ⟨1, g0, .pred true 2, .reg 3, .imm 10, 0⟩),
    (1, 0x0004B846FFC01400, .cmpltI64 ⟨1, g0, .pred true 1, .imm 1023, .reg 5, 0⟩),
    (1, 0x0006000C00A02010, .bfx ⟨1, g0, .reg 3, .reg 2, .imm 8, 16⟩), (1, 0x0006402C03208020, .bfi ⟨1, g0, .reg 11, .reg 12, .imm 32, 32⟩),
    (1, 0x000C002800000000, .mfsr ⟨1, g0, .reg 10, .reg 0, .reg 0, 0⟩), (1, 0x000C400002C00026, .mtsr ⟨1, g0, .reg 0, .reg 11, .reg 0, 0x26⟩),
    (1, 0x000D002400000002, .wid ⟨1, g0, .reg 9, .reg 0, .reg 0, 2⟩)] : List (Nat × Nat × Instr)), decodeSlot p.1 p.2.1 = some p.2.2 := by decide

/-- Words that the spec's examples write out: the clusters (R36, R37, R205 to R214, R226, R163). -/
theorem test_words_cluster : ∀ p ∈ ([
    (12, 0x1A04405004404800, .vaddT .i32 ⟨12, gp false 3 4, .reg 20, .reg 17, .reg 18, 0⟩),
    (12, 0x9A044055182FF400, .vaddT .i32 ⟨12, gp true 3 4, .reg 21, .latch 3 0, .imm 1021, 0⟩),
    (5, 0x0002402D80180001, .vshaddF32 ⟨5, g0, .reg 11, .tap false 0, .tap false 0, 1⟩),
    (5, 0x0002403104104002, .vshaddF32 ⟨5, g0, .reg 12, .latch 0 2, .latch 0 2, 2⟩),
    (9, 0x0005001801001403, .vsubT .i8 ⟨9, g0, .reg 6, .reg 4, .reg 5, 3⟩), (6, 0x0009B80C022FFC00, .vcmpltT .i16 ⟨6, g0, .pred false 3, .reg 8, .imm 1023, 0⟩),
    (3, 0x000B000C00400802, .vsel ⟨3, g0, .reg 3, .reg 1, .reg 2, 2⟩), (5, 0x0000C00007800005, .vhbld ⟨5, g0, .reg 0, .reg 30, .reg 0, 5⟩),
    (5, 0x00080E1001400007, .vxc ⟨5, g0, .reg 900, .reg 5, .reg 0, 7⟩), (9, 0x0018002402200410, .vcvt ⟨9, g0, .reg 9, .reg 8, .imm 1, 0x10⟩),
    (12, 0x00180004002000F0, .vcvt ⟨12, g0, .reg 1, .reg 0, .imm 0, 0xF0⟩), (4, 0x06040821801A0000, .vmulF32 ⟨4, gp false 0 12, .reg 520, .tap false 0, .tap true 0, 0⟩),
    (5, 0x0006400981000000, .vsqrtF32 ⟨5, g0, .reg 2, .tap false 4, .reg 0, 0⟩),
    (5, 0x0009400000800017, .vput ⟨5, g0, .reg 0, .reg 2, .reg 0, 0x17⟩)] : List (Nat × Nat × Instr)), decodeSlot p.1 p.2.1 = some p.2.2 := by decide

/-- Words that the spec's examples write out: the ring, the matrix engine, the ports, the Hod, the engine slot. -/
theorem test_words_engines : ∀ p ∈ ([
    (32, 0x0000AF001FFE0000, .mwr ⟨32, g0, true, 7, .imm 0, 4095, 0⟩), (27, 0x4080C0E040000007, .mrdt ⟨27, gq false 1, false, 0, .loop 2, 0, 7⟩),
    (28, 0x0001050000800025, .mwrm ⟨28, g0, false, 2, .imm 0, 64, 0x25⟩), (30, 0x0001400081000007, .mstag ⟨30, g0, false, 0, .reg 4, 128, 7⟩),
    (35, 0x0000740300B00C11, .mma ⟨35, g0, .acc 0, .om 2, .om 3, 0x11⟩), (35, 0x0000B42301301421, .mmat ⟨35, g0, .acc 8, .om 4, .om 5, 0x21⟩),
    (35, 0x0000F41400000000, .mzero ⟨35, g0, .acc 5, .reg 0, .reg 0, 0⟩), (35, 0x0001301B42000011, .mdrain ⟨35, g0, .om 6, .acc 8, .reg 0, 0x11⟩),
    (35, 0x0001F00180000002, .moml ⟨35, g0, .om 0, .tap false 0, .reg 0, 2⟩), (36, 0x0000740200200000, .aprd ⟨36, g0, .acc 0, .imm 0, true, 0, 0⟩),
    (37, 0x0000F41400C30000, .apadd ⟨37, g0, .acc 5, .reg 3, false, 1, 2⟩), (38, 0x000040000001F000, .hopen ⟨g0, false, 0, 0, 31, 0, 0⟩),
    (38, 0x00008400041FF031, .hpush ⟨g0, false, 2, 0x107, 63, 3, 1⟩), (38, 0x0000EA00041FF031, .hpop ⟨g0, true, 5, 0x107, 63, 3, 1⟩),
    (38, 0x4101000000240000, .hmark ⟨gq false 2, false, 0, 9, 0, 0, 0⟩), (38, 0x000250000000003C, .htbl ⟨g0, false, 8, 0, 0, 3, 12⟩),
    (38, 0x0002C00001147001, .hflushUp ⟨g0, false, 0, 0x45, 7, 0, 1⟩), (39, 0x000400220000003B, .cpy ⟨g0, .reg 8, .imm 0, 59⟩),
    (39, 0x000C4052000001F4, .credBf16 ⟨g0, .reg 20, .imm 0, 500⟩), (39, 0x0010402005000154, .unorm ⟨g0, .reg 8, .reg 20, 340⟩),
    (39, 0x00100000050001FC, .upd ⟨g0, .reg 0, .reg 20, 508⟩), (39, 0x4115C02005000000, .axor ⟨gq false 2, .reg 8, .reg 20, 0⟩),
    (39, 0x4096804A000003A8, .rowldf ⟨gq false 1, .reg 18, .imm 0, 936⟩), (39, 0x4198000000000000, .await ⟨gq false 3, .reg 0, .reg 0, 0⟩),
    (39, 0x0018400000000001, .fencevDone ⟨g0, .reg 0, .reg 0, 1⟩), (39, 0x0018802400000045, .vstat ⟨g0, .reg 9, .reg 0, 0x45⟩)] : List (Nat × Nat × Instr)),
    decodeSlot p.1 p.2.1 = some p.2.2 := by decide

/-- Bundle headers of the spec's examples (R30). -/
theorem test_headers :
    decodeHeader 0x0020000000000000 = some ⟨2, false, false, false, 0, 0⟩ ∧ decodeHeader 0x0002000000000000 = some ⟨0, false, false, true, 0, 0⟩ ∧
    decodeHeader 0x0000070000000000 = some ⟨0, false, false, false, 7, 0⟩ ∧ decodeHeader 0x0000A20000000000 = some ⟨0, false, false, false, 162, 0⟩ ∧
    decodeHeader 0x0001000000000000 = none ∧ decodeHeader 0x0100000000000000 = none := by decide

/-- One ill-formed term for each check of a guard and of the fields of the common layout (R36 to R38, R54, R57, R73). -/
theorem test_ill_formed_slots : ∀ i ∈ ([
    .movI64 ⟨1, ⟨false, true, 1, 0⟩, .reg 1, .reg 2, .reg 0, 0⟩, .movI64 ⟨1, ⟨false, false, 8, 0⟩, .reg 1, .reg 2, .reg 0, 0⟩,
    .movI64 ⟨1, ⟨false, false, 0, 16⟩, .reg 1, .reg 2, .reg 0, 0⟩, .movI64 ⟨3, g0, .reg 1, .reg 2, .reg 0, 0⟩,
    .movI64 ⟨1, g0, .reg 64, .reg 2, .reg 0, 0⟩, .movI64 ⟨1, g0, .imm 1, .reg 2, .reg 0, 0⟩, .movI64 ⟨1, g0, .reg 1, .reg 64, .reg 0, 0⟩,
    .movI64 ⟨1, g0, .reg 1, .tap false 0, .reg 0, 0⟩, .movI64 ⟨1, g0, .reg 1, .slatch 2, .reg 0, 0⟩, .movI64 ⟨1, g0, .reg 1, .loop 6, .reg 0, 0⟩,
    .movI64 ⟨1, g0, .reg 1, .imm 1024, .reg 0, 0⟩, .movI64 ⟨1, g0, .reg 1, .reg 2, .reg 3, 0⟩, .movI64 ⟨1, g0, .reg 1, .reg 2, .reg 0, 1⟩,
    .minI64 ⟨1, g0, .reg 1, .reg 2, .reg 3, 2⟩, .cmpeqI64 ⟨1, g0, .pred true 0, .reg 2, .reg 3, 0⟩, .cmpeqI64 ⟨1, g0, .pred false 3, .reg 2, .reg 3, 0⟩,
    .qand ⟨1, g0, .pred true 1, .pred true 16, .pred true 2, 0⟩, .qnot ⟨1, g0, .pred true 1, .pred true 1, .pred true 2, 0⟩,
    .bfx ⟨1, g0, .reg 1, .reg 2, .imm 0, 0⟩, .bfx ⟨1, g0, .reg 1, .reg 2, .imm 65, 0⟩, .bfi ⟨1, g0, .reg 1, .reg 2, .reg 3, 0⟩,
    .st ⟨1, g0, .reg 1, .reg 2, .reg 3, 3⟩, .ld ⟨1, g0, .reg 1, .reg 2, .reg 3, 8⟩, .mfsr ⟨1, g0, .reg 1, .reg 0, .reg 0, 0x025⟩,
    .mtsr ⟨1, g0, .reg 0, .reg 1, .reg 0, 0x200⟩, .wid ⟨1, g0, .reg 1, .reg 0, .reg 0, 6⟩,
    .vmov ⟨4, g0, .reg 1, .reg 2, .reg 0, 0⟩, .vmov ⟨3, g0, .reg 1024, .reg 2, .reg 0, 0⟩, .vand ⟨3, g0, .reg 1, .latch 1 0, .reg 2, 0⟩,
    .vand ⟨3, g0, .reg 1, .latch 0 3, .reg 2, 0⟩, .vand ⟨3, g0, .reg 1, .tap false 16, .reg 2, 0⟩, .vand ⟨3, g0, .reg 1, .slatch 0, .reg 2, 0⟩,
    .vaddT .i8 ⟨3, g0, .reg 1, .reg 2, .reg 3, 1⟩, .vcmpeqT .i8 ⟨3, g0, .pred false 0, .reg 2, .reg 3, 0⟩, .pand ⟨3, g0, .pred false 1, .reg 1, .pred false 2, 0⟩,
    .vaddF false ⟨3, g0, .reg 1, .imm 1, .reg 2, 0⟩, .vsel ⟨3, g0, .reg 1, .reg 2, .reg 3, 16⟩, .vmulF32 ⟨3, g0, .reg 1, .reg 2, .reg 3, 0⟩,
    .vcvt ⟨3, g0, .reg 1, .reg 2, .imm 0, 0x00⟩, .vcvt ⟨3, g0, .reg 1, .reg 2, .imm 2, 0x10⟩, .vcvt ⟨3, g0, .reg 1, .reg 2, .reg 0, 0x10⟩,
    .vcvt ⟨3, g0, .reg 1, .reg 2, .imm 0, 0x1B0⟩, .vshuf ⟨5, g0, .reg 1, .reg 2, .reg 0, 64⟩, .vhbswap ⟨5, g0, .reg 1, .reg 0, .reg 0, 0⟩,
    .vxc ⟨5, g0, .reg 1, .reg 2, .reg 0, 0⟩, .vtap ⟨5, g0, .reg 1, .reg 2, .reg 0, 0⟩, .vput ⟨5, g0, .reg 0, .reg 2, .reg 0, 32⟩,
    .mma ⟨35, g0, .acc 16, .om 0, .om 1, 1⟩, .mma ⟨35, g0, .acc 0, .om 16, .om 1, 1⟩, .mma ⟨35, g0, .acc 0, .om 1, .om 2, 0⟩,
    .mma ⟨35, g0, .acc 1, .om 0, .om 4, 2⟩, .mma ⟨35, g0, .acc 0, .om 0, .om 1, 4⟩, .mma ⟨36, g0, .acc 0, .om 0, .om 1, 1⟩,
    .mdrain ⟨35, g0, .om 1, .acc 0, .reg 0, 0⟩, .moml ⟨35, g0, .om 0, .tap false 15, .reg 0, 1⟩, .moml ⟨35, g0, .om 0, .tap false 0, .reg 0, 3⟩] : List Instr),
    i.wf = false := by decide

/-- One ill-formed term for each check of the other layouts, of a timeline command and of an event's operands. -/
theorem test_ill_formed_others : ∀ i ∈ ([
    .branch ⟨g0, .reg 1, 64⟩, .branch ⟨g0, .reg 0, 4⟩, .branch ⟨g0, .reg 0, 2 ^ 34⟩, .branchReg ⟨g0, .imm 1, 0⟩, .branchReg ⟨g0, .reg 1, 8⟩,
    .loop ⟨g0, .tap false 0, 1⟩, .loop ⟨g0, .reg 1, 8192⟩, .loop ⟨g0, .reg 1, 2 ^ 32 + 1⟩, .lbrk ⟨g0, .reg 0, 0⟩, .lbrk ⟨g0, .reg 0, 7⟩,
    .setstep ⟨g0, .reg 0, 40⟩, .setstep ⟨g0, .reg 0, 0⟩, .rot ⟨g0, .reg 0, 0x100⟩, .rot ⟨g0, .reg 0, 0x20001⟩, .rotset ⟨g0, .reg 0, 0x100⟩,
    .settle ⟨gq false 1, .reg 0, 400⟩, .settle ⟨g0, .reg 0, 0⟩, .settle ⟨g0, .reg 0, 400 + 401 * 2 ^ 24⟩, .yield ⟨g0, .reg 0, 0⟩,
    .yield ⟨g0, .reg 0, 2 ^ 24⟩, .drift ⟨g0, .reg 0, 8⟩, .trap ⟨g0, .reg 0, 2 ^ 16⟩, .ppop ⟨g0, .reg 63, 0⟩, .endTask ⟨g0, .reg 0, 1⟩,
    .mrd ⟨35, g0, false, 0, .reg 1, 0, 0⟩, .mrd ⟨27, g0, false, 16, .reg 1, 0, 0⟩, .mrd ⟨27, g0, false, 0, .tap false 0, 0, 0⟩,
    .mrd ⟨27, g0, false, 0, .reg 1, 4096, 0⟩, .mrd ⟨27, g0, false, 0, .reg 1, 0, 1⟩, .mrdt ⟨27, g0, false, 0, .reg 1, 0, 64⟩,
    .mwrm ⟨27, g0, false, 0, .reg 1, 0, 0⟩, .mwrm ⟨27, g0, false, 0, .reg 1, 0, 256⟩, .mstag ⟨27, g0, false, 1, .reg 1, 0, 0⟩,
    .aprd ⟨35, g0, .acc 0, .imm 0, false, 0, 0⟩, .aprd ⟨36, g0, .om 0, .imm 0, false, 0, 0⟩, .aprd ⟨36, g0, .acc 0, .imm 64, false, 0, 0⟩,
    .aprd ⟨36, g0, .acc 0, .imm 0, false, 16, 0⟩, .aprd ⟨36, g0, .acc 0, .imm 0, false, 0, 4⟩, .hopen ⟨g0, true, 0, 0, 31, 0, 0⟩,
    .hopen ⟨g0, false, 0, 1, 31, 0, 0⟩, .hopen ⟨g0, false, 0, 0, 32, 0, 0⟩, .hopen ⟨g0, false, 0, 0, 31, 1, 0⟩, .hopen ⟨g0, false, 0, 0, 31, 0, 1⟩,
    .hpush ⟨g0, false, 0, 0, 64, 0, 0⟩, .hpush ⟨g0, false, 0, 2 ^ 16, 0, 0, 0⟩, .hpush ⟨g0, false, 0, 0, 0, 64, 0⟩, .hpush ⟨g0, false, 0, 0, 0, 0, 2⟩,
    .hseal ⟨g0, false, 0, 2048, 0, 0, 0⟩, .htbl ⟨g0, false, 9, 0, 0, 0, 4⟩, .htbl ⟨g0, false, 0, 0, 0, 0, 3⟩, .htbl ⟨g0, false, 0, 0, 0, 0, 13⟩,
    .hflushDown ⟨g0, false, 0, 0, 8, 0, 0⟩, .cpy ⟨g0, .reg 62, .imm 0, 0⟩, .cpy ⟨g0, .imm 1, .imm 0, 0⟩, .cpy ⟨g0, .reg 1, .tap false 0, 0⟩,
    .cpy ⟨g0, .reg 1, .imm 0, 2 ^ 22⟩, .cpyv ⟨g0, .reg 1, .imm 0, 0⟩, .cpyv ⟨g0, .reg 1, .reg 0, 2048⟩, .lsend ⟨g0, .reg 63, .imm 0, 0⟩,
    .await ⟨g0, .reg 0, .reg 0, 32⟩, .fencevOrder ⟨g0, .reg 0, .reg 0, 1⟩, .fencevDone ⟨g0, .reg 0, .reg 0, 2⟩, .vstat ⟨g0, .reg 64, .reg 0, 0⟩,
    .vstat ⟨g0, .reg 1, .reg 0, 128⟩, .act 80 0 0, .act 0 15258 0, .act 0 0 2, .rd 0 4, .wr 0 0 64, .wrs 0 0 0 2, .pre 80, .ref 1 1, .ref 0 2,
    .gap 65536, .sync 4096, .bundleIssue 768, .resultLanding 0 5, .atomicApplication 768, .lossEvent 24 none, .lossEvent 0 (some (0, 80)),
    .bpladdWrite 0 0 0 15258, .admitRead 44, .rangeEntryWrite 0 64 0 0, .rangeEntryWrite 0 0 4 0, .mcwinWrite 32 0 0, .partitionChange 8 [],
    .partitionChange 0 [768], .registerWrite 3 .hctl 0, .registerWrite 2 (.slice 8) 0, .hsemRead [], .hsemRead [3], .drerelMarker 0 16,
    .stateWindowWrite 0 (.sreg 64 0), .measurementExtend 0 0, .powerFrame 8192] : List Instr),
    i.wf = false := by decide

/-- Words that no operation has: an unassigned opcode, a reserved bit, a reserved descriptor, opcode 0 with other bits, an immediate in a
float operation, a latch of another cluster (R3, R35 to R38, R52). -/
theorem test_words_refused : ∀ p ∈ ([(1, 0x0000000000000001), (1, 0x007FC00000000000), (0, 0x0000800000000000), (1, 0x00008018019C0001),
    (27, 0x0000410000000400), (36, 0x0000740000200001), (38, 0x0000400400000000), (40, 0x0000400000000000),
    (3, 0x0010000600400800), (3, 0x0001400508000800), (1, 0x0000800510000800), (39, 0x0004002200000000 + 2 ^ 64)] : List (Nat × Nat)), decodeSlot p.1 p.2 = none := by decide

/-- Timeline words that R82 reserves: an opcode, a zero field, a bank above 79, a row above 15,257. -/
theorem test_timeline_words_refused : ∀ w ∈ [0x00000000, 0xD0000000, 0x20B00001, 0x70A80000, 0x20000000 + 80 * 2 ^ 21, 0x10000000 + 15258 * 2 ^ 7, 0x90300000],
    decodeTimeline w = none := by decide


/-- The machine after reset with its issuing brick, brick 0, changed. -/
def on0 (f : Brick → Brick) : State := State.reset.onCur f

/-- An operation of the common layout under the guard that always holds. -/
def slot (pos : Nat) (dst a b : Opd) (mod : Nat) : SlotOp := ⟨pos, always, dst, a, b, mod⟩

theorem witness_ScalarOperations :
    (∀ r ∈ arithmeticRows, let o := slot 2 (.reg 63) (.reg 63) (.imm 1023) 1
      guardTrue State.reset.cur o.g = true ∧ (r.reads o).any (scalarUe State.reset.cur) = false ∧
      State.reset.freeFor (State.reset.effect o.pos r.lat true (.sreg o.dst.index) 0) = true) ∧
    (∀ r ∈ bitFieldRows, let o := slot 1 (.reg 0) (.reg 1) (.imm 64) 63
      guardTrue State.reset.cur o.g = true ∧ (r.reads o).any (scalarUe State.reset.cur) = false ∧
      State.reset.freeFor (State.reset.effect o.pos r.lat true (.sreg o.dst.index) 0) = true) ∧
    (∀ r ∈ testRows, let o := slot 1 (.pred true 15) (.reg 1) (.imm 512) 0
      guardTrue State.reset.cur o.g = true ∧ (r.reads o).any (scalarUe State.reset.cur) = false ∧
      State.reset.freeFor (State.reset.effect o.pos 1 true (.qpred o.dst.index) 0) = true) := by decide

theorem witness_ScalarOperations_predicates :
    (let o := slot 1 (.pred true 15) (.pred true 0) (.pred true 15) 0
     guardTrue State.reset.cur o.g = true ∧ o.a = .pred true 0 ∧ o.b = .pred true 15 ∧
       State.reset.freeFor (State.reset.effect o.pos 1 true (.qpred o.dst.index) 0) = true) ∧
    (let o := slot 1 (.pred true 1) (.pred true 15) (.reg 0) 0
     guardTrue State.reset.cur o.g = true ∧ o.b = .reg 0 ∧ (⟨.qnot, fun a _ => !a⟩ : QRow).instr o = .qnot o ∧
       State.reset.freeFor (State.reset.effect o.pos 1 true (.qpred o.dst.index) 0) = true) := by decide

/-- Cluster 7's X slot on the highest register, with a q guard. -/
def top7 (mod : Nat) : SlotOp := ⟨24, ⟨true, true, 0, 1⟩, .reg 1023, .reg 512, .reg 0, mod⟩

theorem witness_ClusterOperations :
    (∀ r ∈ logicRows ++ [ETy.i8, ETy.i16, ETy.i32].flatMap integerRows, let o := top7 0
      guardBits State.reset.cur o.g ≠ 0 ∧ sound State.reset o (r.reads o) = true ∧
      State.reset.freeFor (State.reset.effect o.pos r.lat true (vdest State.reset o) 0) = true) ∧
    (∀ r ∈ [ETy.i8, ETy.i16, ETy.i32].flatMap compareRows ++ [false, true].flatMap floatCompareRows,
      let o := { top7 0 with dst := .pred false 15 }
      guardBits State.reset.cur o.g ≠ 0 ∧ sound State.reset o (r.reads o) = true ∧
      State.reset.freeFor (State.reset.effect o.pos 2 true (pdest State.reset o) 0) = true) ∧
    (∀ r ∈ maskRows, let o := { top7 0 with dst := .pred false 1, a := .pred false 15, b := .pred false 0 }
      guardBits State.reset.cur o.g ≠ 0 ∧ sound State.reset o (r.reads o) = true ∧ o.a = .pred false 15 ∧ o.b = .pred false 0 ∧
      State.reset.freeFor (State.reset.effect o.pos 2 true (pdest State.reset o) 0) = true) := by decide

theorem witness_ClusterFloats :
    ∀ r ∈ [false, true].flatMap floatRows ++ multiplyRows ++ functionRows, let o := top7 0
      guardBits State.reset.cur o.g ≠ 0 ∧ sound State.reset o (r.reads o) = true ∧
      State.reset.freeFor (State.reset.effect o.pos r.lat true (vdest State.reset o) 0) = true := by decide

theorem witness_Shuffles :
    ∀ r ∈ shuffleRows, let o := top7 63
      guardBits State.reset.cur o.g ≠ 0 ∧ sound State.reset o (r.reads o) = true ∧
      State.reset.cur.vec.ue.contains (8320 + State.reset.cur.vec.activeBank * 64 + o.mod % 64) = false ∧
      State.reset.freeFor (State.reset.effect o.pos r.lat true (vdest State.reset o) 0) = true := by decide

theorem witness_FalseGuards :
    let i := Instr.st ⟨1, ⟨true, true, 0, 0⟩, .reg 0, .reg 1, .imm 8, 3⟩
    i.wf = true ∧ ∃ p w, encodeSlot i = some (p, w) ∧ guardTrue State.reset.cur (decodeGuard (w / 2 ^ 55)) = false := by
  exact ⟨by decide, _, _, rfl, by decide⟩

theorem witness_IssueTouchesOneBrick :
    ∃ p w t, encodeSlot (.movI64 (slot 1 (.reg 1) (.reg 2) (.reg 0) 0)) = some (p, w) ∧
      exec (.movI64 (slot 1 (.reg 1) (.reg 2) (.reg 0) 0)) State.reset = .next t := ⟨_, _, _, rfl, rfl⟩

/-- The last 8 bytes of ring memory: an address that wraps. -/
theorem witness_ScalarMemory :
    let s := on0 fun x => { x with sc := { x.sc with s := [(1, 0xFFFFFFFFFFFFFFFF)] } }
    (let o := slot 2 (.reg 63) (.reg 1) (.reg 0) 7
     let at' := accessAt (scalarVal s.cur o.a + scalarVal s.cur o.b).toNat (o.mod % 4)
     guardTrue s.cur o.g = true ∧ scalarUe s.cur o.a = false ∧ scalarUe s.cur o.b = false ∧ at' = 2 ^ 21 - 8 ∧
       portFree s (at' / 2 ^ 18) (s.cur.seq.clk + 1) = true ∧ s.freeFor (s.effect o.pos 3 true (.sreg o.dst.index) 0) = true) ∧
    (∀ m ∈ [3, 0], let o := slot 1 (.reg 0) (.reg 2) (.reg 1) m
     let at' := accessAt (scalarVal s.cur o.b).toNat (o.mod % 4)
     guardTrue s.cur o.g = true ∧ scalarUe s.cur o.a = false ∧ scalarUe s.cur o.b = false ∧
       portFree s (at' / 2 ^ 18) (s.cur.seq.clk + 3) = true ∧ portFree s (at' / 2 ^ 18) (s.cur.seq.clk + 1) = true) := by decide

theorem witness_SystemRegisters :
    (∀ m ∈ [0x000, 0x003, 0x008, 0x00F, 0x010, 0x01F, 0x022, 0x027, 0x028, 0x02D, 0x032, 0x049, 0x04D, 0x050, 0x05F, 0x100, 0x1FF], let o := slot 1 (.reg 63) (.reg 0) (.reg 0) m
     guardTrue State.reset.cur o.g = true ∧ State.reset.freeFor (State.reset.effect o.pos 1 true (.sreg o.dst.index) 0) = true) ∧
    (let o := slot 1 (.reg 0) (.reg 63) (.reg 0) 0x02B
     guardTrue State.reset.cur o.g = true ∧ scalarUe State.reset.cur o.a = false) ∧ noWrite 0x028 = true ∧ noWrite 0x050 = true ∧
    (let s := on0 fun x => { x with task := some 3 }
     let o := slot 2 (.reg 1) (.reg 0) (.reg 0) 5
     guardTrue s.cur o.g = true ∧ s.freeFor (s.effect o.pos 1 true (.sreg o.dst.index) 0) = true ∧ s.cur.task = some 3) := by decide

/-- FP32 to BF16, the second part, and a copy of one format. -/
theorem witness_ConvertsOnePart : ∀ m ∈ [0x10, 0x11], let o := slot 3 (.reg 1) (.reg 2) (.imm (if m = 0x10 then 1 else 0)) m
    let fs := resolveFmt State.reset.cur (o.mod % 16)
    let fd := resolveFmt State.reset.cur (o.mod / 16 % 16)
    guardBits State.reset.cur o.g ≠ 0 ∧ sound State.reset o [o.a] = true ∧
      State.reset.freeFor (State.reset.effect o.pos 2 true (vdest State.reset o) 0) = true ∧
      fmtWidth fs ≠ 0 ∧ fmtWidth fd ≠ 0 ∧ (fs = fd ∨ vcvtPair fs fd = true) ∧ o.b.index < fmtRatio fs fd ∧ (fd = 11 → o.mod / 256 = 0) := by decide

/-- A number, an infinity and NaNs, for each kind of destination. -/
theorem witness_ConvertsOnePart_values :
    (∀ fd ∈ [1, 2, 3, 4, 5, 6, 7, 8, 9, 10, 11], vcvtPair 0 fd = true) ∧ isNumber 0 0x40A00000 ∧ 0x40A00000 < 2 ^ fmtWidth 0 ∧
    infOf (floatOf 0) true = 0xFF800000 ∧ 0xFF800000 < 2 ^ fmtWidth 0 ∧ fmtIsFloat 0 = true ∧ isNanOf (floatOf 0) 0x7F800001 ∧
    vcvtPair 3 0 = true ∧ 0x20 % 64 = 32 ∧ vcvtPair 11 0 = true ∧ isNumber 11 254 ∧ ¬ isNumber 11 255 ∧ isNumber 4 15 ∧ isNumber 5 128 := by
  unfold isNumber isFinite isNanOf
  refine ⟨?_, ?_, ?_, ?_, ?_, ?_, ?_, ?_, ?_, ?_, ?_, ?_, ?_, ?_⟩ <;> decide +kernel

/-- 11 R228's worked example: 0.3, -2.6, 5.0 and 7.5 to E2M1, and the towards-zero results. -/
theorem test_convert_e2m1 :
    [0x3E99999A, 0xC0266666, 0x40A00000, 0x40F00000].map (fun x => (convert 0 4 false x).1) = [1, 13, 6, 7] ∧
    [0x3E99999A, 0xC0266666, 0x40A00000, 0x40F00000].map (fun x => (convert 0 4 true x).1) = [0, 12, 6, 7] := by decide +kernel

theorem witness_ClusterTransfers :
    (let o := slot 5 (.reg 0) (.reg 1023) (.reg 0) 63
     guardBits State.reset.cur o.g ≠ 0 ∧ sound State.reset o [o.a] = true ∧
       State.reset.freeFor (State.reset.effect o.pos 2 false (.pattern (1 - State.reset.cur.vec.activeBank) (o.mod % 64)) 0) = true) ∧
    (let o := slot 5 (.reg 0) (.reg 0) (.reg 0) 0
     guardTrue State.reset.cur o.g = true ∧ State.reset.freeFor (State.reset.effect o.pos 1 false .bankSwap 0) = true) ∧
    (let o := slot 5 (.reg 1023) (.reg 1) (.reg 0) 7
     let d := Dest.vreg o.mod (physReg State.reset.cur o.mod o.dst.index)
     guardBits State.reset.cur o.g ≠ 0 ∧ sound State.reset o [o.a] = true ∧ clusterOf o.pos < 8 ∧ o.mod < 8 ∧
       State.reset.freeFor (State.reset.effect o.pos 11 false d 0) = true) ∧
    (let o := slot 26 (.reg 0) (.reg 1) (.reg 0) 31
     guardBits State.reset.cur o.g ≠ 0 ∧ sound State.reset o [o.a] = true ∧
       laneFree State.reset true (o.mod % 16) (2 * clusterOf o.pos + 1) (State.reset.cur.seq.clk + 1) = true) := by decide

/-- A ctl word under the guard that always holds. -/
def ctl (a : Opd) (imm : Nat) : CtlOp := ⟨always, a, imm⟩

theorem witness_Transfers :
    let s := { on0 fun x => { x with sc := { x.sc with s := [(1, 2 ^ 34 - 8)] } } with issue := { State.reset.issue with pc := 64 } }
    guardTrue s.cur always = true ∧
    0 ≤ (s.issue.pc : Int) + sgn 34 ((2 ^ 34 - 64) % 2 ^ 34) ∧
    scalarUe s.cur (.reg 1) = false ∧ (scalarVal s.cur (.reg 1)).toNat < 2 ^ 34 ∧ (scalarVal s.cur (.reg 1)).toNat % 8 = 0 ∧
    s.freeFor (s.effect 0 1 false (.sreg 63) 0) = true ∧ 0 ≤ (s.issue.pc : Int) + 8 * sgn 28 (field (63 + (2 ^ 28 - 8) * 2 ^ 6) 6 28) := by decide +kernel

/-- Each transfer in a bundle that stands at the END of the one level. -/
theorem witness_Transfers_topEnd : ∀ p ∈ [(0x00004003FFFFFFC0, ctl (.reg 0) (2 ^ 34 - 64)), (211123412402176, ctl (.reg 1) 0),
      (281474976710657, ctl (.reg 0) 1), (562967133290499, ctl (.reg 1) 3)],
    let w := p.1
    let o := p.2
    let x : Brick := { Brick.reset with seq := { Brick.reset.seq with depth := 1, loops := [(0, ⟨0, 2, 1, 8, 64⟩)] } }
    let u : Bundle := ⟨1, 64, 80, [(0, w)]⟩
    u.word 0 = some w ∧ w ≠ 0 ∧ decodeSlot 0 w ∈ [some (Instr.branch o), some (.branchReg o), some (.call o), some (.loop o)] ∧
      0 < x.seq.depth ∧ (loopLevel x (x.seq.depth - 1)).fin = u.pc := by
  decide

/-- The outermost level with a count of 1 and with a count of 0; the sixth level inside five; LBRK of all levels. -/
theorem witness_Loops :
    (∀ n ∈ [0, 1], let s := on0 fun x => { x with sc := { x.sc with s := [(1, BitVec.ofNat 64 n)] } }
     let o := ctl (.reg 1) 0x2003
     let c := (scalarVal s.cur o.a).toNat
     guardTrue s.cur o.g = true ∧ scalarUe s.cur o.a = false ∧ s.cur.seq.depth ≠ 6 ∧ field o.imm 21 6 ≤ c ∧
       c ≤ 2 ^ field o.imm 27 5 ∧ s.cur.seq.depth = 0 ∧ c = n) ∧
    (let s := on0 fun x => { x with seq := { x.seq with depth := 5, loops := [(4, ⟨0, 2, 1, 0, 8⟩)] } }
     let o := ctl (.imm 1) 1
     guardTrue s.cur o.g = true ∧ scalarUe s.cur o.a = false ∧ s.cur.seq.depth ≠ 6 ∧
       field o.imm 21 6 ≤ (scalarVal s.cur o.a).toNat ∧ (scalarVal s.cur o.a).toNat ≤ 2 ^ field o.imm 27 5 ∧
       s.issue.pc + 8 * field o.imm 0 13 ≤ (loopLevel s.cur 4).fin ∧ (scalarVal s.cur o.a).toNat ≠ 0 ∧
       guardTrue s.cur (ctl (.reg 0) 5).g = true ∧ 5 ≤ s.cur.seq.depth) := by decide +kernel

theorem witness_Loops_backEdge :
    let x (rem : Nat) : Brick := { Brick.reset with seq := { Brick.reset.seq with depth := 6, loops := [(5, ⟨0, rem, 1, 8, 64⟩)] } }
    ((x 2).seq.depth = 0 ∨ (loopLevel (x 2) 5).fin ≠ 8) ∧
    (0 < (x 2).seq.depth ∧ (loopLevel (x 2) ((x 2).seq.depth - 1)).fin = 64 ∧ 1 < (loopLevel (x 2) ((x 2).seq.depth - 1)).rem) ∧
    (0 < (x 1).seq.depth ∧ (loopLevel (x 1) ((x 1).seq.depth - 1)).fin = 64 ∧ (loopLevel (x 1) ((x 1).seq.depth - 1)).rem ≤ 1) ∧
    (field (sysGet (x 2) 0x045).toNat 5 3 ≠ (x 2).seq.depth - 1) ∧
    (field (sysGet { x 2 with sys := [(0x045, 5 * 2 ^ 5)] } 0x045).toNat 5 3 = (x 2).seq.depth - 1) := by decide

theorem witness_StepsAndRotation :
    guardTrue State.reset.cur always = true ∧
    (let o := ctl (.reg 0) (0xFF + 2 ^ 17)
     let cs := (List.range 8).filter fun c => o.imm.testBit c
     (cs.map fun c => State.reset.effect 0 1 false (.ppred c (8 + 7)) 0).all State.reset.freeFor = true) ∧
    (let o := ctl (.reg 0) (0xFF + 2 ^ 20)
     let cs := (List.range 8).filter fun c => o.imm.testBit c
     (cs.flatMap fun c => (List.range 8).map fun j => State.reset.effect 0 1 false (.ppred c (8 + j)) 0).all State.reset.freeFor = true) := by decide

theorem witness_RegionsAndEnds :
    guardTrue State.reset.cur always = true ∧
    ([State.reset.effect 0 2 false (.sreg 62) (BitVec.ofNat 512 0), State.reset.effect 0 2 false (.sreg 63) (BitVec.ofNat 512 0)].all
      State.reset.freeFor = true) := by decide

/-- A lane that holds a line at a station. -/
def onLane (aw : Bool) (lane station : Nat) (d : Line) (x : Brick) : Brick :=
  { x with ring := { x.ring with lanes := x.ring.lanes ++ [⟨aw, lane, station, x.seq.clk, some d⟩] } }

/-- m7 reads the last line of block 7, whose granule has the tag 7 that s1 wants; then with no tag; then writes what lies on its lane. -/
theorem witness_RingAccesses :
    let s := on0 fun x => onLane true 15 14 5 { x with sc := { x.sc with s := [(1, 7)] }, ring := { x.ring with tags := [(511, 7)] } }
    let o : RingOp := ⟨34, always, true, 15, .reg 0, 4095, 1⟩
    guardTrue s.cur o.g = true ∧ scalarUe s.cur o.base = false ∧ portFree s (blockOf o.pos) (s.cur.seq.clk + 1) = true ∧
      laneFree s false 15 (2 * blockOf o.pos) (s.cur.seq.clk + 3) = true ∧
      tagOf s.cur (granule s o) = tagOperand s.cur (o.mod % 64) ∧ tagOf s.cur (granule s o) ≠ 0xFFFF ∧
      (tagOf State.reset.cur (granule State.reset o) = 0xFFFF) ∧ tagOf s.cur (granule s o) ≠ tagOperand s.cur 2 ∧
      tap s.cur o.aw o.lane (2 * blockOf o.pos) = some 5 ∧ portFree s (blockOf o.pos) (s.cur.seq.clk + 3) = true ∧ blockOf o.pos < 8 ∧
      (blocksOf 255).all (fun j => portFree s j (s.cur.seq.clk + 3)) = true ∧ scalarUe s.cur (.reg 63) = false := by decide +kernel

/-- FP32 and FP64 products, a fresh one and one that accumulates. -/
theorem witness_ArrayProducts : ∀ m ∈ [0, 0x10, 0x22], let s := on0 fun x => { x with mx := { x.mx with claim := List.range 16 } }
    let o : SlotOp := ⟨35, always, .acc 14, .om 0, .om 4, m⟩
    let fmt := resolveFmt s.cur (o.mod % 16)
    let accum := o.mod.testBit 4
    let pred := chainOf s.cur o.dst.index fmt accum
    let tiles := accTiles fmt o.dst.index
    let groups := omSlots fmt o.a.index ++ omSlots fmt o.b.index
    guardTrue s.cur o.g = true ∧ s.cur.mx.arrayFree ≤ s.cur.seq.clk ∧ fmt < 4 ∧
      mxFormatFault (o.mod % 16) fmt [o.a.index, o.b.index] o.dst.index = false ∧
      idle s.cur (if pred.isSome then [1, 2] else [0, 1, 2]) tiles = true ∧ idle s.cur [4] groups = true ∧
      groups.all s.cur.mx.claim.contains = true ∧ (omPoisoned s.cur groups || startPoisoned s fmt o.dst.index accum) = false := by decide

theorem witness_ArrayProducts_start (s : State) (h : chainOf s.cur 0 1 false = none) :
    (startWords s 1 0 false).length = 4096 * (accTiles 1 0).length := by simp [startWords, h]

theorem witness_DrainsConvert : ∀ m ∈ [0, 1, 0x13], let s := on0 fun x => { x with mx := { x.mx with claim := List.range 16 } }
    let o : SlotOp := ⟨35, always, .om 12, .acc 15, .reg 0, m⟩
    let fmt := resolveFmt s.cur (o.mod % 16)
    guardTrue s.cur o.g = true ∧ s.cur.mx.arrayFree ≤ s.cur.seq.clk ∧ fmt < 4 ∧
      mxFormatFault (o.mod % 16) fmt [o.dst.index] o.a.index = false ∧ idle s.cur [0, 1, 2] (accTiles fmt o.a.index) = true ∧
      idle s.cur [3, 4] (omSlots fmt o.dst.index) = true ∧ (omSlots fmt o.dst.index).all s.cur.mx.claim.contains = true ∧
      accPoisoned s.cur (accTiles fmt o.a.index) = false := by decide

theorem witness_OperandMemoryAndPorts :
    let s := on0 fun x => onLane false 14 16 1 (onLane false 15 16 2 { x with mx := { x.mx with claim := [15] } })
    let o : SlotOp := ⟨35, always, .om 15, .tap false 14, .reg 0, 1⟩
    guardTrue s.cur always = true ∧ State.reset.cur.mx.claim.contains 15 = false ∧ s.cur.mx.claim.contains o.dst.index = true ∧
      idle s.cur [3, 4] [o.dst.index] = true ∧ idle s.cur [0, 1] [15] = true ∧ s.cur.flights = [] ∧ s.cur.mx.momlFree ≤ s.cur.seq.clk ∧
      ((List.range 2).all fun i => (tap s.cur false (14 + i) 16).isSome) = true ∧
      (let p : ApOp := ⟨37, always, .acc 15, .imm 63, false, 14, 3⟩
       scalarUe s.cur p.row = false ∧ idle s.cur [0] [p.tile.index] = true ∧ laneFree s true 14 16 (s.cur.seq.clk + 4) = true ∧
       tap s.cur p.aw p.lane 16 = some 1) := by decide +kernel

/-- An open Hod: MODE, one lane, an empty stack. -/
def openHod (m : HodMode) (x : Brick) : Brick := { x with hod := { x.hod with core := { x.hod.core with mode := m } } }

/-- A root with no regions and a child; HCLOSE of a root that is as it was opened, HCLOSE.DISCARD of a child. -/
theorem witness_HodOpensAndCloses :
    guardTrue State.reset.cur always = true ∧ hodReady State.reset 1 = true ∧ State.reset.cur.hod.issued.mode = .closed ∧
    State.reset.cur.hod.flights = [] ∧ field (sysGet State.reset.cur 0x04C).toNat 16 14 = 0 ∧ field (sysGet State.reset.cur 0x04C).toNat 32 16 = 0 ∧
    (let s := on0 (openHod .root)
     guardTrue s.cur always = true ∧ hodReady s 12 = true ∧ s.cur.hod.issued.mode = .root ∧ s.cur.hod.issued.top = 0 ∧
       s.cur.hod.issued.recs = [] ∧ s.cur.hod.issued.lanes.all (· == 0x00010000) = true) ∧
    (let s := on0 (openHod .child)
     hodReady s 12 = true ∧ s.cur.hod.issued.mode ≠ .sealing) := by decide

/-- HOPEN with both regions of one unit group: HBM at virtual page 0 and the deep tier at page 2^40. -/
theorem witness_HodOpensAndCloses_regions :
    let p : Part := { Part.reset with bricks := [0], ranges := [(0, ⟨0, 0xFFFFFFFF, 0, 0x31⟩), (1, ⟨0x10000000000, 0x100FFFFFFFF, 0, 0x35⟩)] }
    let s := { on0 fun x => { x with sys := [(0x04C, 0x100010000), (0x04E, 0x10000000000)] } with parts := [(0, p)] }
    (hodRegion s 0 1507328 0 1507328).cause = 0 ∧ (hodRegion s 0x10000000000 11776 2 1).cause = 0 := by decide +kernel

/-- 64 elements of FP4 pushed off a lane; the record that the push leaves, popped. -/
theorem witness_HodPushesAndPops :
    let o : HdOp := ⟨always, false, 3, 65535, 0, 63, 4⟩
    (let s := on0 fun x => onLane false 3 17 9 (openHod .root x)
     let c := s.cur.hod.issued
     let fmt := resolveFmt s.cur o.fmt
     let lines := (64 * fmtWidth fmt + 511) / 512
     guardTrue s.cur o.g = true ∧ hodReady s 2 = true ∧ c.mode = .root ∧ Machine.hodFormat fmt = true ∧ lines ≤ (64 + c.ell - 1) / c.ell ∧
       c.recs.length < 4096 ∧ tap s.cur o.aw o.lane 17 = some 9) ∧
    (let r : HodRec := ⟨recBits 1 false false 4 63 0 65535 16, 0⟩
     let s := on0 fun x => { x with hod := { x.hod with core := { x.hod.core with mode := .root, recs := [r] } } }
     let c := s.cur.hod.issued
     let fmt := resolveFmt s.cur o.fmt
     guardTrue s.cur o.g = true ∧ hodReady s 3 = true ∧ c.mode = .root ∧ Machine.hodFormat fmt = true ∧ o.table < 64 ∧ o.count < 64 ∧ o.tag < 2 ^ 16 ∧
       c.onBlock = false ∧ c.recs.head? = some r ∧ r.kind = 1 ∧
       field r.bits.toNat 4 32 = fmt + 2 ^ 4 * o.table + 2 ^ 10 * o.count + 2 ^ 16 * o.tag ∧ laneFree s o.aw o.lane 17 (64 + 12) = true) := by decide +kernel

/-- HPOP of child 0 of the SPLIT block on top, from which nothing has been popped. -/
theorem witness_HodPushesAndPops_child :
    let r : HodRec := ⟨recBits 1 false false 4 63 0 65535 16, 0⟩
    let k : HodChild := ⟨0, 0, 1, 1, [0x00010000], [r], 16, 16, true⟩
    let s := on0 fun x => { x with hod := { x.hod with core :=
      { x.hod.core with mode := .root, recs := [⟨recBits 3 false false 0 0 0 7 0, 0⟩], children := [k] } } }
    let c := s.cur.hod.issued
    c.mode = .root ∧ c.onBlock = true ∧ c.childOf (field (sysGet s.cur 0x04C).toNat 10 6) = some k ∧
      ((c.childOf 0).bind fun k => k.recs.head?) = some r ∧ k.fresh = true ∧ c.lanes.all (· == 0x00010000) = true := by decide

theorem witness_HodStackAndFlushes_marks :
    let o : HdOp := ⟨always, false, 0, 65535, 63, 0, 0⟩
    let m : HodRec := ⟨recBits 2 false false 0 0 0 65535 2, 0⟩
    (let s := on0 (openHod .root)
     guardTrue s.cur o.g = true ∧ o.tag < 2 ^ 16 ∧ s.cur.hod.issued.mode = .root ∧ hodReady s 4 = true ∧ hodReady s 6 = true ∧
       s.cur.hod.issued.recs.length < 4096 ∧ s.cur.hod.issued.recs.length + o.count + 2 ≤ 4096) ∧
    (let s := on0 fun x => { x with hod := { x.hod with core := { x.hod.core with mode := .root, recs := [m] } } }
     let c := s.cur.hod.issued
     guardTrue s.cur o.g = true ∧ c.mode = .root ∧ hodReady s 4 = true ∧ hodReady s 5 = true ∧ c.recs.head? = some m ∧ m.kind = 2 ∧ m.tag = o.tag ∧
       c.lanes.all (· == 0x00010000) = true ∧ c.recs.find? (fun r => r.kind == 2) = some m) := by decide +kernel

theorem witness_HodStackAndFlushes_children :
    (let s := on0 (openHod .child)
     guardTrue s.cur always = true ∧ hodReady s 7 = true ∧ s.cur.hod.issued.mode = .child ∧ acceptable s 63 31 = true) ∧
    (∀ st ∈ [0, 1], let h : HodRec := ⟨recBits 3 false false 0 0 0 7 0, 0⟩
     let k : HodChild := ⟨0, 0, st, 1, [], [], 0, 0, true⟩
     let s := on0 fun x => { x with hod := { x.hod with core := { x.hod.core with mode := .splitWait, recs := [h], children := [k] } } }
     let c := s.cur.hod.issued
     guardTrue s.cur always = true ∧ hodReady s 8 = true ∧ c.mode = .splitWait ∧ c.recs.head? = some h ∧ h.kind = 3 ∧ h.tag = 7 ∧ c.block = some h ∧
       (if st = 1 then ((c.children.filter fun k => k.hdr == h.pos).all fun k => k.state != 0 && k.state != 2) = true
        else ((c.children.filter fun k => k.hdr == h.pos).any fun k => k.state == 0) = true ∧ s.cur.hod.joinWait < 2 ^ 20)) := by decide +kernel

/-- HJOIN of an arrived child while an HMARK is in flight. -/
theorem witness_HodStackAndFlushes_join :
    let h : HodRec := ⟨recBits 3 false false 0 0 0 7 0, 0⟩
    let k : HodChild := ⟨0, 0, 1, 1, [], [], 0, 0, true⟩
    let f : HodFlight := { due := 1, opc := 4, op := ⟨always, false, 0, 1, 0, 0, 0⟩, fmt := 0, freqs := [], prec := 0, lt := 0, left := 0, lines := [], child := none, clk := 0, held := [], pc := 0, issue := 0 }
    let s := on0 fun x => { x with hod := { x.hod with core := { x.hod.core with mode := .splitWait, recs := [h], children := [k] }, flights := [f] } }
    hodReady s 8 = true ∧ s.cur.hod.flights = [f] ∧ s.cur.seq.clk < f.due ∧
      ((s.cur.hod.core.children.filter fun k => k.hdr == h.pos).all fun k => k.state != 0 && k.state != 2) = true := by decide

/-- A table of precision 8: every symbol with frequency 1. -/
theorem witness_HodStackAndFlushes_table :
    let ones : Line := ofElems 16 (List.replicate 32 1)
    let s := on0 fun x => { x with ring := { x.ring with lanes := (List.range 8).map fun q => ⟨false, q, 17, 0, some ones⟩ } }
    let taps := (List.range 8).map fun q => tap s.cur false (0 + q) 17
    let freqs := taps.flatMap fun l => (List.range 32).map fun e => elem 16 (l.getD 0) e
    guardTrue s.cur always = true ∧ hodReady s 9 = true ∧ taps.all Option.isSome = true ∧ freqs.all (fun f => decide (f ≤ 2 ^ 8)) = true ∧
      freqs.sum = 2 ^ 8 := by decide +kernel

theorem witness_HodStackAndFlushes_status :
    guardTrue State.reset.cur always = true ∧ hodReady State.reset 10 = true ∧ laneFree State.reset false 15 17 2 = true ∧
    (let g := State.reset.cur.hod.seen State.reset.cur.seq.clk
     g.core.recs.length < 2 ^ 16 ∧ g.core.ell ≤ 2 ^ 8 ∧ g.hbmUnits < 2 ^ 32 ∧ g.deepUnits < 2 ^ 32) ∧
    (let s := on0 fun x => { x with hod := { x.hod with core := { x.hod.core with mode := .root }, cfg := 0x100010000, hbmUnits := 1, deepUnits := 1 } }
     let h := s.cur.hod
     hodReady s 11 = true ∧ h.issued.mode ∈ [HodMode.root, .splitWait, .child] ∧ acceptable s 63 31 = true ∧ h.flush = none ∧
       (1 ≤ h.deepUnits ∧ h.hbmUnits + underWay h .spill + 1 ≤ 4 * field h.cfg.toNat 16 14) ∧ h.deepPaged = false ∧
       ¬ (2 ≤ h.deepUnits ∧ h.hbmUnits + underWay h .spill + 2 ≤ 4 * field h.cfg.toNat 16 14) ∧
       ¬ (1 + underWay h .refill ≤ h.hbmUnits ∧ h.deepUnits + 1 ≤ field h.cfg.toNat 32 16)) := by decide

/-- An HFLUSH.UP while a spill of three units is under way; one of a paged region whose second line lies beyond 2^48. -/
theorem witness_HodStackAndFlushes_flushes :
    (let w : HodWin := { start := 0, kind := .spill, first := 0, n := 3, lines := [], cracked := false, stopped := false }
     let s := on0 fun x => { x with hod := { x.hod with cfg := 0x100010000, hbmUnits := 1, deepUnits := 1, win := some w } }
     hodReady s 11 = true ∧ s.cur.hod.flush = none ∧ acceptable s 63 31 = true ∧ ¬ s.cur.hod.hbmUnits + underWay s.cur.hod .spill + 1 ≤ 4) ∧
    (let s := on0 fun x => { x with hod := { x.hod with cfg := 0x100010000, deepUnits := 1, deepPaged := true, deepBase := 2 ^ 48 - 64 } }
     let h := s.cur.hod
     let at' := fun i : Nat => h.deepBase + 11776 * ((h.deepUnits - 1 + i / 184) % max 1 (field h.cfg.toNat 32 16)) + 64 * (i % 184)
     hodReady s 11 = true ∧ h.flush = none ∧ acceptable s 63 31 = true ∧ (1 ≤ h.deepUnits ∧ h.hbmUnits + underWay h .spill + 1 ≤ 4) ∧
       1 < 184 * 1 ∧ ¬ (h.deepPaged = false ∨ at' 1 + 64 ≤ 2 ^ 48) ∧ (h.deepPaged = false ∨ at' 0 + 64 ≤ 2 ^ 48)) := by decide

theorem witness_CoderStepInverts : 2 ^ 16 ≤ 2 ^ 32 - 1 ∧ 2 ^ 32 - 1 < 2 ^ 32 ∧ 0 < 1 ∧ 2 ^ 16 - 1 + 1 ≤ 2 ^ 16 ∧ 16 ≤ 16 := by decide

/-- Two elements of four bits whose symbols have one of two frequencies, one lane. -/
theorem witness_TilesDecodeBack :
    let lanes : List (BitVec 32) := [0xFFFFFFFF]
    let freqs := [1, 1]
    let es := [1, 0]
    4 ∈ [0, 1, 3, 4, 5, 8] ∧ 1 ≤ 16 ∧ 0 < 1 ∧ 1 ≤ lanes.length ∧ lanes.all (fun x => decide (2 ^ 16 ≤ x.toNat)) = true ∧ freqs.sum = 2 ^ 1 ∧
      (∀ e ∈ es, e < 2 ^ (if 4 = 3 then 6 else fmtWidth 4)) ∧
      ∃ after ws, codeTile 4 false freqs 1 1 8 lanes es = some (after, ws) ∧ ws.length = 1 ∧
        ∀ j, (h : j < ws.length) → (fun _ : Nat => some (0xFFFF : BitVec 16)) (1 - 1 - j) = some ws[j] ∧
          (fun _ : Nat => false) (1 - 1 - j) = false := by
  refine ⟨by decide, by decide, by decide, by decide, by decide, by decide, by decide, _, _, rfl, rfl, ?_⟩
  intro j h
  match j, h with
  | 0, _ => exact ⟨rfl, rfl⟩


/-- A Hod stack as HOPEN leaves it, with one lane. -/
def bareStack (m : HodMode) : HodCore := { HodCore.reset with mode := m }

/-- An operation in the Hod's flight. -/
def hodFly (opc fmt count tag table due : Nat) : HodFlight :=
  { due := due, opc := opc, op := ⟨always, false, 3, tag, count, table, fmt⟩, fmt := fmt, freqs := [], prec := 0, lt := 1, left := 0, lines := [], child := none, clk := 0, held := [], pc := 0, issue := 0 }

theorem witness_HodMarksAndRecords : stackOk (bareStack .root) := by
  refine ⟨Nat.le_refl _, (fun q h => nomatch h), rfl, rfl, by decide, fun j _ h => ?_⟩
  have all : ∀ j, j < 32 → (bareStack .root).lanes.getD j 0x00010000 = 0x00010000 := by decide
  exact all j h

theorem witness_HodMarksAndRecords_operations :
    (hodFly 4 0 0 65535 0 2).opc = 4 ∧ (hodFly 4 0 0 65535 0 2).op.fmt ≠ 1 ∧ (hodFly 4 1 0 65535 0 2).op.fmt = 1 ∧
      (hodFly 5 0 0 65535 0 2).opc = 5 ∧ (hodFly 6 0 63 65535 0 2).opc = 6 ∧ (hodFly 6 0 63 65535 0 2).op.count < 64 ∧
      (hodFly 6 0 63 65535 0 2).op.tag < 2 ^ 16 ∧ (hodFly 7 0 0 0 0 2).opc = 7 ∧ (bareStack .root).children = [] ∧
      (⟨recBits 1 false false 4 0 0 1 3, 0⟩ : HodRec).kind ≠ 2 := by decide

/-- A tile of 64 zeros with a table of sixteen equal symbols codes; with an empty table it goes raw. -/
theorem witness_HodMarksAndRecords_record : ∀ raw ∈ [false, true],
    let f := { hodFly 2 4 0 1 0 0 with freqs := List.replicate 16 (if raw then 0 else 256), prec := 12, lines := [0] }
    let s := on0 fun x => { x with hod := { x.hod with core := bareStack .root, flights := [f] } }
    let h := (s.brick 0).hod
    let es := (List.range 64).map fun e => field (linesNat f.lines) (4 * e) 4
    h.flights = [f] ∧ f.opc = 2 ∧ f.due = (s.brick 0).seq.clk ∧ h.drives = [] ∧ h.core.bot ≤ h.core.top ∧
      (raw = true ↔ codeTile f.fmt false f.freqs f.prec h.core.ell 16 h.core.lanes es = none) ∧
      (match codeTile f.fmt raw f.freqs f.prec h.core.ell (if raw then 2 * 64 + 32 else 16) h.core.lanes es with
       | some p => decide (h.core.top + p.2.length - h.core.bot + h.coming ≤ 22 * 5888)
       | none => false) = true := by decide +kernel

/-- A tile whose table holds one symbol takes no word; a mark. -/
theorem witness_HodMarksAndRecords_commit :
    let r : HodRec := ⟨recBits 1 false false 4 0 0 1 0, 0⟩
    let f := { hodFly 3 4 0 1 0 0 with freqs := [4096], prec := 12 }
    let s := on0 fun x => { x with hod := { x.hod with core := { bareStack .root with recs := [r] }, flights := [f] } }
    let h := (s.brick 0).hod
    let d := decodeTile f.fmt r.raw f.freqs f.prec h.core.ell 64 h.core.lanes h.core.word h.core.marked h.core.top
    h.flights = [f] ∧ f.opc = 3 ∧ f.child = none ∧ f.due = (s.brick 0).seq.clk ∧ h.drives = [] ∧ 0 < f.lt ∧ h.core.recs = [r] ∧ d.below = false ∧
      d.bad = false ∧ d.lost = false ∧ d.used = r.words ∧ d.lanes.all (· == 0x00010000) = true ∧
      (let g := hodFly 4 0 0 9 0 0
       let s := on0 fun x => { x with hod := { x.hod with core := bareStack .root, flights := [g] } }
       let h := (s.brick 0).hod
       h.flights = [g] ∧ g.opc ∈ [4, 5, 6, 7, 8] ∧ g.due = (s.brick 0).seq.clk ∧ h.drives = [] ∧
         (hodEffect h.coming h.core g).code = 0) ∧
      (let g := hodFly 5 0 0 9 0 0
       let m : HodRec := ⟨recBits 2 false false 0 0 0 9 2, 5888⟩
       let c := { bareStack .root with top := 11776, bot := 11776, recs := [m] }
       let g := { g with held := List.replicate 2 (0, false) }
       let s := on0 fun x => { x with hod := { x.hod with core := c, flights := [g], hbmUnits := 2 } }
       let h := (s.brick 0).hod
       h.flights = [g] ∧ g.due = (s.brick 0).seq.clk ∧ (hodEffect h.coming h.core g).code = 0 ∧
         (hodEffect h.coming h.core g).core.bot < h.core.bot) := by decide +kernel

/-- Brick 0 has sealed child 0 of the block that tops the stack of brick 1. -/
theorem witness_HodChildrenAndWindows :
    let r : HodRec := ⟨recBits 3 false false 0 0 0 7 0, 0⟩
    let k : HodChild := ⟨0, 0, 0, 1, [], [], 0, 0, true⟩
    let cmd : VCmd := { opc := 7, w0 := 0, w1 := 0, w2 := 0, vs := 63, bar := 0, epoch := 0, writes := false, target := 0, kind := 0, grans := [] }
    let x := { Brick.reset with hod := { Brick.reset.hod with core := bareStack .sealing, cfg := 1, splitTag := 7 }, var := { Brick.reset.var with queue := [cmd] } }
    let y := { Brick.reset with hod := { Brick.reset.hod with core := { bareStack .splitWait with recs := [r], children := [k] } } }
    let s := { State.reset with bricks := [(0, x), (1, y)], parts := [(0, { Part.reset with bricks := [0, 1] })] }
    let h := (s.brick 0).hod
    let c := (s.brick 1).hod.core
    (s.brick 1).task = (s.brick 0).task ∧ (s.brick 0).var.queue.find? (fun c => c.opc == 7) = some cmd ∧ h.core.mode = .sealing ∧ field h.cfg.toNat 0 10 = 1 ∧
      1 ∈ (s.part (s.partOf 0)).bricks ∧ c.mode = .splitWait ∧ c.block = some r ∧ r.tag = h.splitTag ∧
      c.childOf (field h.cfg.toNat 10 6) = some k ∧ k.state = 0 ∧
      c.top + (s.stackWords 0 h.core 0 h.core.top).length - c.bot + (s.brick 1).hod.coming ≤ 22 * 5888 ∧
      h.core.bot = 0 ∧ h.core.words.length = h.core.top := by decide +kernel

/-- The same where the parent, of task 2, is parked. -/
theorem witness_HodChildrenAndWindows_parked :
    let r : HodRec := ⟨recBits 3 false false 0 0 0 7 0, 0⟩
    let k : HodChild := ⟨0, 0, 0, 1, [], [], 0, 0, true⟩
    let cmd : VCmd := { opc := 7, w0 := 0, w1 := 0, w2 := 0, vs := 63, bar := 0, epoch := 0, writes := false, target := 0, kind := 0, grans := [] }
    let x := { Brick.reset with task := some 2, hod := { Brick.reset.hod with core := bareStack .sealing, cfg := 1, splitTag := 7 }, var := { Brick.reset.var with queue := [cmd] } }
    let y := { Brick.reset with hod := { Brick.reset.hod with core := { bareStack .splitWait with recs := [r], children := [k] } } }
    let s := { State.reset with bricks := [(0, x)], parts := [(0, { Part.reset with bricks := [0, 1] })], tasks := [(2, { Task.none with saved := [(1, y)] })] }
    let h := (s.brick 0).hod
    let c := y.hod.core
    (s.brick 0).task = some 2 ∧ (s.brick 1).task ≠ some 2 ∧ (s.task 2).savedBrick 1 = some y ∧
      (s.brick 0).var.queue.find? (fun c => c.opc == 7) = some cmd ∧ h.core.mode = .sealing ∧ field h.cfg.toNat 0 10 = 1 ∧
      1 ∈ (s.part (s.partOf 0)).bricks ∧ c.mode = .splitWait ∧ c.block = some r ∧ r.tag = h.splitTag ∧
      c.childOf (field h.cfg.toNat 10 6) = some k ∧ k.state = 0 ∧
      c.top + (s.stackWords 0 h.core 0 h.core.top).length - c.bot + y.hod.coming ≤ 22 * 5888 := by decide +kernel

/-- The record of the only child of the block on top is popped and the block goes, or a second child still holds one. -/
theorem witness_HodMarksAndRecords_children : ∀ more ∈ [false, true],
    let hd : HodRec := ⟨recBits 3 false false 0 0 0 7 2, 0⟩
    let r : HodRec := ⟨recBits 1 false false 4 0 0 1 0, 2⟩
    let kd : HodChild := ⟨0, 0, 1, 1, baseLanes, [r], 2, 2, true⟩
    let f := { hodFly 3 4 0 1 0 0 with freqs := [4096], prec := 12, child := some 0 }
    let c := { bareStack .root with words := [1, 0], top := 2, recs := [hd], children := kd :: if more then [{ kd with idx := 1 }] else [] }
    let s := on0 fun x => { x with hod := { x.hod with core := c, flights := [f] } }
    let h := (s.brick 0).hod
    let d := decodeTile f.fmt r.raw f.freqs f.prec kd.ell 64 kd.lanes h.core.word h.core.marked kd.ptr
    let kids := h.core.children.map fun q => if q.hdr = kd.hdr ∧ q.idx = kd.idx then { kd with lanes := d.lanes, recs := [], ptr := kd.ptr - d.used, fresh := false } else q
    h.flights = [f] ∧ f.opc = 3 ∧ f.due = (s.brick 0).seq.clk ∧ h.drives = [] ∧ 0 < f.lt ∧ h.core.block = some hd ∧ h.core.childOf 0 = some kd ∧
      d.below = false ∧ d.bad = false ∧ d.lost = false ∧ d.used = r.words ∧ d.lanes.all (· == 0x00010000) = true ∧
      (if more then ∃ q ∈ kids, q.hdr = hd.pos ∧ q.recs ≠ []
       else (∀ q ∈ kids, q.hdr = hd.pos → q.recs = []) ∧ h.core.lanesAt hd.pos = some baseLanes ∧ h.core.badLanes hd.pos = false) := by decide +kernel

/-- A push is due before an earlier pop, and a mark and its drop. -/
theorem witness_HodStackAndFlushes_shows :
    let r : HodRec := ⟨recBits 1 false false 4 0 0 1 0, 0⟩
    let p := { hodFly 3 4 0 1 0 9 with freqs := [4096], prec := 12 }
    let f := { hodFly 2 4 0 1 0 5 with lines := [0] }
    let h := { Brick.reset.hod with core := { bareStack .root with recs := [r] }, flights := [p, f] }
    let marks := { h with flights := [p, hodFly 4 0 0 2 0 5, hodFly 4 1 0 2 0 5] }
    p.opc = 3 ∧ p.child = none ∧ f.opc = 2 ∧ 5 < p.due ∧ f.due ≤ 5 ∧ h.core.recs ≠ [] ∧ h.core.lanes.length = 32 ∧ h.core.ell ≤ 32 ∧
      h.core.bot ≤ (hodEffect h.coming h.core p).core.top ∧ (h.seen 5).core.recs.length = 2 ∧ (marks.seen 5).core.recs = [r] ∧ (marks.seen 5).core.top = 0 := by
  decide +kernel

/-- A cut to a mark below BOT that shows, behind a pop that is still to come: the one unit in HBM is freed, and an HFLUSH.DOWN of it
has no room, in the state before it a room (R278, R286). -/
theorem witness_HodStackAndFlushes_cut :
    let r : HodRec := ⟨recBits 1 false false 4 0 0 1 0, 5888⟩
    let m : HodRec := ⟨recBits 2 false false 0 0 0 1 0, 0⟩
    let p := { hodFly 3 4 0 1 0 9 with freqs := [4096], prec := 12 }
    let cut := { hodFly 5 0 0 1 0 2 with held := [(0, false), (1, false)] }
    let s := on0 fun x => { x with
      seq := { x.seq with clk := 3 }
      hod := { x.hod with cfg := 0x100010000, hbmUnits := 1, flights := [p, cut]
                          core := { bareStack .root with bot := 5888, top := 5888, recs := [r, m] } } }
    s.cur.hod.hbmUnits = 1 ∧ (s.cur.hod.seen s.cur.seq.clk).hbmUnits = 0 ∧ hodReady s 11 = true ∧ acceptable s 63 31 = true := by decide +kernel

/-- Brick 1 has issued a pop and then its HSPLIT, whose cycle has come; brick 0 has sealed the child. -/
theorem witness_HodChildrenAndWindows_inFlight :
    let r : HodRec := ⟨recBits 1 false false 4 0 0 1 0, 0⟩
    let p := { hodFly 3 4 0 1 0 9 with freqs := [4096], prec := 12 }
    let cmd : VCmd := { opc := 7, w0 := 0, w1 := 0, w2 := 0, vs := 63, bar := 0, epoch := 0, writes := false, target := 0, kind := 0, grans := [] }
    let x := { Brick.reset with hod := { Brick.reset.hod with core := bareStack .sealing, cfg := 1, splitTag := 7 }, var := { Brick.reset.var with queue := [cmd] } }
    let y := { Brick.reset with
      seq := { Brick.reset.seq with clk := 6 }
      hod := { Brick.reset.hod with core := { bareStack .root with recs := [r] }, flights := [p, hodFly 6 0 0 7 0 5] } }
    let s := { State.reset with bricks := [(0, x), (1, y)], parts := [(0, { Part.reset with bricks := [0, 1] })] }
    let h := (s.brick 0).hod
    let c := ((s.brick 1).hod.seen ((s.brick 1).seq.clk - 1)).core
    (s.brick 1).task = (s.brick 0).task ∧ (s.brick 0).var.queue.find? (fun c => c.opc == 7) = some cmd ∧ (s.brick 0).var.queue.find? (fun d => d.vs == 63) = some cmd ∧
      h.core.mode = .sealing ∧ field h.cfg.toNat 0 10 = 1 ∧ 1 ∈ (s.part (s.partOf 0)).bricks ∧ (s.brick 1).hod.core.mode = .root ∧ c.mode = .splitWait ∧
      (c.block.any fun q => q.tag == h.splitTag) = true ∧ ((c.childOf (field h.cfg.toNat 10 6)).any fun k => k.state == 0 &&
        decide ((s.brick 1).hod.issued.childOf (field h.cfg.toNat 10 6) = some k)) = true ∧
      c.top + (s.stackWords 0 h.core 0 h.core.top).length - c.bot + (s.brick 1).hod.coming ≤ 22 * 5888 := by decide +kernel

/-- Fifteen units with a free slot spill; five and a unit in HBM refill; a flush down, and one up that its granules have come for, have
the window; one unit more than six with none does nothing. -/
theorem witness_HodChildrenAndWindows_windows :
    let flushed : VCmd := { opc := 11, w0 := 0, w1 := 0, w2 := 0, vs := 63, bar := 0, epoch := 0, writes := false, target := 0, kind := 2, grans := [0, 1, 2], size := 11776 }
    let at' (top hbm deep : Nat) (f : Option HodFlush) := on0 fun x => { x with
      hod := { x.hod with cfg := 0x100010000, hbmUnits := hbm, deepUnits := deep, flush := f, core := { bareStack .root with top := 5888 * (hbm + deep) + top, bot := 5888 * (hbm + deep) } }
      var := { x.var with queue := [flushed] } }
    Rules.windowChoice (at' 88320 3 0 none) 0 = some (.spill, 3, 1) ∧ Rules.windowChoice (at' 35327 2 0 none) 0 = some (.refill, 0, 2) ∧
      Rules.windowChoice (at' 35328 2 0 (some ⟨false, 1, 63, 0, 1⟩)) 0 = some (.down, 0, 1) ∧
      Rules.windowChoice (at' 35328 0 1 (some ⟨true, 1, 63, 0, 1⟩)) 0 = some (.up, 0, 1) ∧ Rules.windowChoice (at' 35328 2 0 none) 0 = none := by decide +kernel

/-- A spill of one unit at its last write. -/
theorem witness_HodChildrenAndWindows_spill :
    let w : HodWin := { start := 100, kind := .spill, first := 0, n := 1, lines := [], cracked := false, stopped := false }
    let s := { on0 fun x => { x with hod := { x.hod with win := some w, core := { bareStack .root with top := 88320 } } } with
      tb := { State.reset.tb with ct := 142 } }
    (s.brick 0).hod.win = some w ∧ w.kind = .spill ∧ w.stopped = false ∧ w.n ≤ 8 ∧ s.tb.ct = w.start + 42 := by decide

/-- A window under way in brick 0, at an offset. -/
def hodWindowAt (w : HodWin) (off : Nat) (h : Hod) : State :=
  { on0 fun x => { x with hod := { h with win := some w } } with tb := { State.reset.tb with ct := w.start + off } }

/-- Unit 1 of a refill, whole and on a cracked stripe; unit 1 of a spill, and of an HFLUSH up. -/
theorem witness_HodChildrenAndWindows_units : ∀ kind ∈ [WinKind.refill, .spill, .up], ∀ cracked ∈ [false, true],
    let w : HodWin := { start := 100, kind := kind, first := 2, n := 4, lines := if kind = .refill then List.replicate 184 (0, false) else [], cracked := cracked, stopped := false }
    let s := hodWindowAt w 14 { Hod.reset with cfg := 0x10000, hbmUnits := 8 }
    let p := (s.brick 0).hod.unitPlace 0 3
    (s.brick 0).hod.win = some w ∧ w.n ≤ (if w.cracked then 4 else 8) ∧ (kind = .refill → w.lines.length = 184) ∧ s.tb.ct = w.start + 10 + 4 * 1 ∧
      s.stripe p.ch p.bank p.row = .bonded ∧ (∀ st, st < 24 → s.isLost st p.ch p.bank = false) ∧
      (∀ st, st < 24 → physRow (s.channel (32 * st + p.ch)) p.bank p.row < 16384) := by decide +kernel

/-- A refill's last cycle: the units still lie right below BOT, or a cut has freed them. -/
theorem witness_HodChildrenAndWindows_refilled : ∀ cracked ∈ [false, true], ∀ fresh ∈ [false, true],
    let w : HodWin := { start := 100, kind := .refill, first := 0, n := 1, lines := List.replicate 184 (0, false), cracked := cracked, stopped := false }
    let s := hodWindowAt w (if cracked then 98 else 90) { Hod.reset with core := { bareStack .root with bot := if fresh then 5888 else 0, top := 5888 }, hbmUnits := 1 }
    let h := (s.brick 0).hod
    h.win = some w ∧ w.n ≤ (if w.cracked then 4 else 8) ∧ s.tb.ct = w.start + (if w.cracked then 98 else 90) ∧ h.flights = [] ∧
      w.lines.length = 184 * w.n ∧ (fresh = true ↔ h.core.bot = 5888 * (w.first + w.n)) := by decide +kernel

/-- An HFLUSH up at its window's last write, and one down whose bytes have all performed. -/
theorem witness_HodChildrenAndWindows_flushed : ∀ up ∈ [true, false],
    let w : HodWin := { start := 100, kind := .up, first := 0, n := 1, lines := [], cracked := false, stopped := false }
    let f : HodFlush := ⟨up, 1, 63, 0, 1⟩
    let c : VCmd := { opc := 11, w0 := 0, w1 := 0, w2 := 0, vs := 63, bar := 0, epoch := 0, writes := false, target := 0, kind := 2, grans := [0, 1, 2], size := 11776, side := if up then 1 else 0 }
    let s := (hodWindowAt w 10 { Hod.reset with flush := some f }).onBrick 0 fun x => { x with var := { x.var with queue := [c] } }
    (s.brick 0).hod.win = some w ∧ s.tb.ct = w.start + 10 + 4 * (w.n - 1) ∧ (s.brick 0).hod.flush = some f ∧ f.up = up ∧
      (s.brick 0).var.queue.find? (fun d => d.vs == 63) = some c ∧ c.opc = 11 ∧ (up = false → c.side = 0) ∧
      c.grans.length = (c.size + 4095) / 4096 ∧ c.ports = [] := by decide +kernel

/-- R285: a refill ends: its words stand below the stream buffer's, lowest position last. -/
theorem test_refill_lands :
    let w : HodWin := { start := 100, kind := .refill, first := 0, n := 1, lines := (7, false) :: List.replicate 183 (0, false), cracked := false, stopped := false }
    let s := hodWindowAt w 90 { Hod.reset with core := { bareStack .root with bot := 5888, top := 5888 }, hbmUnits := 1 }
    let c := ((s.windowStep 0).brick 0).hod.core
    c.bot = 0 ∧ c.words.length = 5888 ∧ c.words[5887]? = some 7 ∧ c.words[0]? = some 0 := by decide +kernel

/-- Words in registers s8, s9, s10, a partition with one range entry of a target, and one multicast window on die 0. -/
def copier (w0 w1 w2 : Nat) (target : Nat) : State :=
  { on0 fun x => { x with sc := { x.sc with s := [(8, BitVec.ofNat 64 w0), (9, BitVec.ofNat 64 w1), (10, BitVec.ofNat 64 w2)] } } with
    parts := [(0, { Part.reset with bricks := [0], ranges := [(0, ⟨0, 0xFFFFFFFFFFFF, 0, BitVec.ofNat 64 (0x31 + 2 * target)⟩)] })]
    mcwin := [(0, 0x0FFF_0000_0100_0001)] }

/-- An en word on registers from s8, at plan cycle 2, the earliest. -/
def soon (imm : Nat) : EnOp := ⟨always, .reg 8, .imm 0, imm⟩

/-- From the last line of the ring to itself; from the Yard to the ring and back; into a multicast window. -/
theorem witness_CopiesAreHeld : ∀ q ∈ [(false, 0x1FFFC0, 0x1FFFC0, 0x00), (false, 0, 0x40, 0x101), (false, 0, 0x40, 0x10), (true, 0, 0, 0x30)],
    let s := copier q.2.1 q.2.2.1 q.2.2.2 1
    let o := soon 2
    let h := command s o (if q.1 then 0x11 else 0x10) 3
    let n := shapeLen h.w2
    let sk := shapeSk h.w2
    let dk := shapeDk h.w2
    guardTrue s.cur o.g = true ∧ wordsSound s o 3 = true ∧ admitted q.1 h = true ∧
      (sk = 1 → Rules.found (copyXlate s h.w0 n false) = true) ∧ (dk = 1 → Rules.found (copyXlate s h.w1 n true) = true) ∧
      (dk = 3 → windowOk s h.w1 n = true) ∧ timely s o ((n - 1) / 2) = true := by decide +kernel

/-- A shape with a reserved kind; a false guard on one that is admitted. -/
theorem witness_CopiesAreHeld_illegal :
    (let s := copier 0 0 0xFF 1
     admitted false (command s (soon 2) 0x10 3) = false ∧ admitted true (command s (soon 2) 0x11 3) = false ∧
       decodable (command s (soon 2) 0x12 3) = false) ∧
    (let o : EnOp := { soon 2 with g := ⟨true, true, 0, 0⟩ }
     guardTrue (copier 0 0 0 1).cur o.g = false ∧ admitted false (command (copier 0 0 0 1) o 0x10 3) = true ∧
       admitted true (command (copier 0 0 0x30 1) o 0x11 3) = true ∧ decodable (command (copier 0 0x40 0x701 1) o 0x12 3) = true) := by
  decide +kernel

theorem witness_CopiesAreHeld_decompress :
    let s := copier 0 0x40 0x701 1
    let o := soon 2
    let h := command s o 0x12 3
    let n := shapeLen h.w2
    let x := copyXlate s h.w0 n false
    let decode := ((512 * 2 ^ shapeSc h.w2 + shapeN h.w2 - 1) / shapeN h.w2 + 7) / 8 + 4
    let first := 8 + decode + 2
    guardTrue s.cur o.g = true ∧ wordsSound s o 3 = true ∧ decodable h = true ∧ Rules.found x = true ∧
      greatest (shapeClen h.w2) (fun k => k / 2 + fetchTime 1 (ownYard s (x.addr + 64 * k))) 8 ∧
      timely s o (first + (n - 1) / 2 - 2) = true := by
  unfold greatest
  decide +kernel

/-- A machine whose brick 0 holds one command, at a plan count, and has run its cycle. -/
def holder (clk : Nat) (h : Held) : State :=
  { on0 fun x => { x with held := [h], seq := { x.seq with clk := clk } } with ran := [0] }

/-- Line 2 of three that come from the ring, and the Yard, of a copy that starts at 2; then its lines are written. -/
theorem witness_CopiesMove :
    (∀ sk ∈ [0, 1], let h := { Held.fresh 0x10 0 0x40 (BitVec.ofNat 64 (0x200 + sk)) 0 0 with p := 2, part := 0x40 }
     let own (j : Nat) : Bool := (h.target + 64 * j) / 2 ^ 26 == 0 / 24
     let rd := if shapeSk h.w2 = 0 then 1 else if own 2 then 2 else 8
     let s := holder (2 + 1 + rd + 1) h
     (s.brick 0).held = [h] ∧ h.opc = 0x10 ∧ h.cancelled = false ∧ h.stop = none ∧ h.got = [] ∧ shapeSk h.w2 ≤ 1 ∧ 2 < shapeLen h.w2 ∧
       (s.brick 0).seq.clk = h.p + 2 / 2 + rd + 1 ∧ (s.ringRead 0 (h.target + 64 * 2) 64).2.1 = false ∧
       markedWords (s.brick 0).ring.ce (h.target + 64 * 2) 64 = [] ∧ (0, h.p, 2, 0) ∉ s.yardRefused ∧
       (s.yardRead (h.target + 64 * 2)).1.2 = false ∧ markedWords s.yardCe (h.target + 64 * 2) 64 = []) ∧
    (let h := { Held.fresh 0x10 0 0x1FFFC0 0 0 0 with p := 2, part := 0x1FFFC0, got := [⟨0, 77, false, 5⟩] }
     let s := holder 8 h
     0 ∈ s.ran ∧ (s.brick 0).held = [h] ∧ h.opc = 0x10 ∧ h.cancelled = false ∧ h.stop = none ∧ shapeDk h.w2 = 0 ∧ h.part % 64 = 0 ∧ 0 < (s.brick 0).seq.clk ∧
       linesDue h 2 ((s.brick 0).seq.clk - 1) = h.got ∧ ((linesDue h 2 ((s.brick 0).seq.clk - 1)).map Fetched.k).Nodup) := by decide +kernel

/-- A package with a block on channel 5's read-return path and a copy on brick 0. -/
def returning (h : Held) (ct clk : Nat) : State :=
  { holder clk h with
    tb := { State.reset.tb with ct := ct }
    channels := [(5, { Channel.reset with ret := [{ issued := 100, rdx := false, from' := 148, lines := List.replicate 8 (9, false), alt := [], stripe := none }] })] }

/-- A take inside its block's hold, and one after it: the last cycle and the next. -/
theorem witness_CopiesMove_take :
    let h := { Held.fresh 0x10 (BitVec.ofNat 64 (5 + 100 * 2 ^ 32)) 0 0x702 0 0 with p := 2 }
    (∀ ct ∈ [148, 211, 212], let s := returning h ct 4
     (s.brick 0).held = [h] ∧ h.cancelled = false ∧ h.stop = none ∧ h.got = [] ∧ shapeSk h.w2 = 2 ∧ 2 < shapeLen h.w2 ∧ (s.brick 0).seq.clk = h.p + 2 / 2 + 1 ∧
       (s.channel (field h.w0.toNat 0 10)).ret.length = 1 ∧
       ∀ r ∈ (s.channel (field h.w0.toNat 0 10)).ret, (r.issued % 2 ^ 32 = field h.w0.toNat 32 32 ∧ r.rdx = h.w0.getLsbD 10) ∧
         (r.from' ≤ s.tb.ct ∧ s.tb.ct ≤ r.from' + 63 ↔ ct ≠ 212)) := by decide +kernel

/-- Lines due at each kind of destination; a line whose bank refuses it; an entry that is full. -/
theorem witness_CopiesMove_writes :
    (∀ q ∈ [(0x00, 0x1FFFC0, 5), (0x10, 0x3FFFFC0, 3), (0x10, 0x4000000, 0), (0x20, 0x2C05, 3), (0x30, 0x1F, 1)],
      let h := { Held.fresh (if q.1 = 0x30 then 0x11 else 0x10) 0 (BitVec.ofNat 64 q.2.1) (BitVec.ofNat 64 q.1) 0 0 with p := 2, part := q.2.1, got := [⟨0, 77, true, q.2.2⟩] }
      let s := holder 8 h
      0 ∈ s.ran ∧ (s.brick 0).held = [h] ∧ h.cancelled = false ∧ h.stop = none ∧ 0 < (s.brick 0).seq.clk ∧ shapeDk h.w2 = q.1 / 16) ∧
    (let h := { Held.fresh 0x10 0 0x40 0x10 0 0 with p := 2, part := 0x40, got := [⟨0, 77, true, 3⟩] }
     (h.got.filter fun g => g.at' + storeTime 1 (onDie 0 (h.part + 64 * g.k)) == 7) = h.got ∧ (0, 2, 0, 1) ∈ [(0, 2, 0, 1)]) := by decide +kernel

/-- 07 R148's block: its substreams hold R148's tokens and fill their shares; the same with a last token one byte short fails with code 5 at 45. -/
def exampleStreams : List (List Token) :=
  [[.inr (0, 130), .inr (0, 126)], [.inl [1, 2, 3, 4], .inr (0, 130), .inr (0, 122)]]

theorem witness_CopiesMove_blocks :
    exampleStreams.length = 2 ∧ (∀ ts ∈ exampleStreams, ∀ t ∈ ts, tokenOk t) ∧ 32 + (4 + 9) ≤ 64 * 1 ∧
      exampleStreams.map (fun ts => (ts.flatMap tokenBytes).length) = [4, 9] ∧
      (∀ j < 2, ((exampleStreams.getD j []).flatMap tokenOut).length = shareLen 2 0 j) ∧
      tokenFails 256 255 45 [] 5 45 ∧ (blockHeader 2 0 [4, 9]).take 8 = [0x01, 0x00, 0x04, 0x80, 0x04, 0x00, 0x00, 0x00] := by
  refine ⟨by decide, ?_, by decide, by decide +kernel, by decide +kernel, .inl ⟨rfl, by decide, rfl, rfl⟩, by decide +kernel⟩
  intro ts h t ht
  simp only [exampleStreams, List.mem_cons, List.not_mem_nil, or_false] at h
  rcases h with rfl | rfl <;> simp only [List.mem_cons, List.not_mem_nil, or_false] at ht
  · rcases ht with rfl | rfl <;> simp [tokenOk]
  · rcases ht with rfl | rfl | rfl <;> simp [tokenOk]

/-- 07 R151's example: that last token one byte short gives code 5, substream 1 and offset 45. -/
theorem test_malformed_block :
    let ss : List (List Byte) := [[0xFF, 0, 0xFB, 0], [3, 1, 2, 3, 4, 0xFF, 0, 0xF6, 0]]
    let d := decodeBlock (blockHeader 2 0 [4, 9] ++ ss.flatten ++ List.replicate 19 0) 2 0 1
    d.code = 5 ∧ d.sub = 1 ∧ d.off = 45 ∧ d.bad = 256 := by decide +kernel

/-- A decoded block that performs at its W0, the last cycle of its decoding. -/
theorem witness_CopiesMove_performs :
    let h := { Held.fresh 0x12 0 0 0x1000701 0 0 with p := 2, got := [⟨0, 0, false, 10⟩] }
    let s := holder (2 + 8 + 36 + 2 + 1) h
    0 ∈ s.ran ∧ (s.brick 0).held = [h] ∧ h.cancelled = false ∧ h.part % 64 = 0 ∧ 0 < (s.brick 0).seq.clk ∧
      h.got.map Fetched.k = List.range (shapeClen h.w2) ∧ ((512 * 2 ^ shapeSc h.w2 + shapeN h.w2 - 1) / shapeN h.w2 + 7) / 8 + 4 = 36 ∧
      (8 = 0 / 2 + fetchTime 1 (onDie 0 (h.target + 64 * 0)) ∧ shapeClen h.w2 = 1) := by decide +kernel

/-- A package of rank 0 with a peer of rank 1 four cycles away on port 35, every column of it admitted. -/
def linked (s : State) : State :=
  { s with ranktbl := [(0, 0x1000), (1, 0x1001)], pathtbl := [(1, 35 + 4 * 64)], mason := { s.mason with admitReg := [(35, 0xFFFF)] } }

/-- Every link command with one line, arriving at the earliest cycle; a critical LSEND; a command that only takes. -/
theorem witness_LinkCommandsAreHeld :
    ∀ q ∈ [(0x20, 2, 0x1600400001, 0), (0x20, 2, 0x1600C00001, 0), (0x21, 2, 0x1600000001, 0), (0x30, 3, 0x1600400001, 0x1600000001),
      (0x31, 3, 0x1600400001, 0x1600000001), (0x32, 3, 0x1600400001, 0x1600000001), (0x33, 3, 0x1600400001, 0x1600000001),
      (0x32, 3, 0, 0x1600000001)],
    let s := linked (copier 0 q.2.2.1 q.2.2.2 0)
    let o := soon 2
    let h := command s o q.1 q.2.1
    let beats := (h.count - 1) / 2
    guardTrue s.cur o.g = true ∧ wordsSound s o q.2.1 = true ∧ linkWords h = true ∧ timely s o (beats + 1) = true ∧
      (h.sends = true → s.peerOk h.dstRank = true) ∧ (h.takes = true → s.peerOk h.srcRank = true) ∧
      (h.sends = true → startCourse s o + beats + 16 ≤ departure s o h ∧ departure s o h < startCourse s o + 2 ^ 31) ∧
      (portSlots s o h).any s.slotTaken = false := by decide +kernel

/-- A local word off its alignment; a collective's out word whose OUT is clear and whose rank is not zero, with its guard true and false;
words that are admitted, with a false guard. -/
theorem witness_LinkCommandsAreHeld_refused :
    let no : EnOp := ⟨⟨true, true, 0, 0⟩, .reg 8, .imm 0, 2⟩
    let h (o : EnOp) (w0 w1 : Nat) := command (linked (copier w0 w1 0 0)) o 0x32 3
    let s (w0 w1 : Nat) := (linked (copier w0 w1 0 0)).cur
    guardTrue (s 0 1) no.g = false ∧ guardTrue (s 0 1) (soon 2).g = true ∧ wordsSound (linked (copier 0 1 0 0)) (soon 2) 3 = true ∧
      linkWords (h no 0 1) = false ∧ linkLocal (h no 0 1) = true ∧ linkWords (h (soon 2) 0 1) = false ∧ linkLocal (h no 1 0) = false ∧
      linkWords (h no 0 0) = true := by decide +kernel

/-- R40, R343, R360: a guard-false LRECV whose in word has OUT set does nothing; one whose local word is off its alignment is illegal. -/
theorem test_guardfalse_lrecv : ∀ w0 ∈ [0, 1],
    let no : EnOp := ⟨⟨true, true, 0, 0⟩, .reg 8, .imm 0, 2⟩
    (match exec (.lrecv no) (linked (copier w0 0x758400C09001 0 0)) with
     | .next t => decide (t.issue.found.map (·.code) = if w0 = 0 then [] else [0x01])
     | _ => false) = true := by decide +kernel

/-- A critical LSEND of one line to rank 1 that starts at 2. -/
def sender (course : Nat) (done nak : Bool) : Held :=
  { Held.fresh 0x20 0 0x1600C00001 0 0 0 with p := 2, course := course, done := done, nak := nak, got := [⟨0, 7, false, 5⟩] }

theorem witness_Flits_depart :
    (∀ clk ∈ [9, 8], let s := linked (holder clk (sender 10 false false))
     (s.brick 0).held = [sender 10 false false] ∧ (sender 10 false false).sends = true ∧ (sender 10 false false).cancelled = false ∧
       (sender 10 false false).course = s.tb.ct + 10 ∧
       (if clk = 9 then 2 + 0 + 6 ≤ (s.brick 0).seq.clk - 1 else (s.brick 0).seq.clk - 1 < 2 + 0 + 6)) ∧
    (let s := linked (holder 18 (sender 0 false false))
     (s.brick 0).held = [sender 0 false false] ∧ (sender 0 false false).course = s.tb.ct ∧ onlySends (sender 0 false false) = true ∧ admits s (s.portTo 1) s.tb.ct = true ∧
       admits s (s.portTo 1) (s.tb.ct + 2 * s.lp 1 + 8) = true) := by decide +kernel

/-- A task that is parked with a sender held. -/
def parkedSender (ct clk : Nat) (h : Held) : State :=
  { linked { State.reset with tasks := [(0, { Task.none with state := .parked, steptag := 5, saved := [(0, (holder clk h).brick 0)] })] } with
    tb := { State.reset.tb with ct := ct } }

theorem witness_Flits_parked :
    (let s := parkedSender 0 8 (sender 10 false false)
     ∃ x, (s.task 0).savedBrick 0 = some x ∧ x.held = [sender 10 false false] ∧ (sender 10 false false).sends = true ∧
       (sender 10 false false).cancelled = false ∧ (sender 10 false false).course = s.tb.ct + 10 ∧ x.seq.clk - 1 < 2 + 0 + 6 ∧ (s.task 0).steptag ≠ 0) ∧
    (let s := parkedSender 10 18 (sender 10 false false)
     ∃ x, (s.task 0).savedBrick 0 = some x ∧ x.held = [sender 10 false false] ∧ (sender 10 false false).done = false ∧
       (sender 10 false false).course = s.tb.ct ∧ admits s (s.portTo 1) s.tb.ct = true) := by
  exact ⟨⟨_, rfl, by decide +kernel⟩, ⟨_, rfl, by decide +kernel⟩⟩

/-- 22 R388: a parked task's flit departs on its cycle; its command is critical and waits for its retry slot. -/
theorem test_parked_departure :
    (match exec (.flitDeparture 768) (parkedSender 10 18 (sender 10 false false)) with
     | .next t => decide (((t.task 0).savedBrick 0).map (fun x => x.held.map (·.done)) = some [true] ∧ t.out.length = 1)
     | _ => false) = true := by decide +kernel

theorem witness_Flits_arrive :
    let f : Flit := ⟨35, 1, 0, 0, 22, true, false, true, [7]⟩
    let s := linked State.reset
    s.peerOk f.srcRank = true ∧ f.port = s.portTo f.srcRank ∧ ((s.landing.filter fun g => g.port = f.port).length < 32) ∧
      ({ f with crcOk := false }).crit = true ∧ ({ f with crcOk := false, crit := false }).crit = false ∧
      s.peerOk 2 = false ∧ (34 ≠ s.portTo f.srcRank) ∧
      (let full := { s with landing := List.replicate 32 f }
       ¬ (full.landing.filter fun g => g.port = f.port).length < 32) := by decide +kernel

/-- 19 R346: a flit on its A waits; one that comes a cycle after it was absent. -/
theorem test_late_flit :
    let f : Flit := ⟨35, 1, 0, 0, 22, true, false, true, [7]⟩
    let s (ct : Nat) := { linked State.reset with tb := { (linked State.reset).tb with ct := ct } }
    let held (ct : Nat) : Bool := match exec (.flitArrival f) (s ct) with
      | .next t => decide (t.landing = [f])
      | _ => false
    held 22 = true ∧ held 23 = false := by decide +kernel

theorem witness_Flits_retry :
    (let h := { Held.fresh 0x21 0 0x00800001 0 0 0 with p := 2 }
     let s := linked (holder 2 h)
     (s.brick 0).held = [h] ∧ h.takes = true ∧ h.critIn = true ∧ h.cancelled = false ∧ h.aIn = s.tb.ct % 2 ^ 32 ∧ s.heldFlit h = none ∧
       Out.nak (s.portTo h.srcRank) h.srcRank h.aIn (s.tb.ct + 1) ∉ s.out) ∧
    (let h := sender 0 true true
     let s := { linked (holder 40 h) with tb := { State.reset.tb with ct := 16 } }
     (s.brick 0).held = [h] ∧ h.sends = true ∧ h.crit = true ∧ h.aOut = 22 % 2 ^ 32 ∧ h.done = true ∧ h.cancelled = false ∧ h.nak = true ∧
       h.course + 2 * s.lp h.dstRank + 8 = s.tb.ct) ∧
    (let h := sender 0 true false
     let s := { linked (holder 40 h) with tb := { State.reset.tb with ct := 20 } }
     (s.brick 0).held = [h] ∧ h.sends = true ∧ h.crit = true ∧ h.done = true ∧ h.course + 2 * s.lp h.dstRank + 8 + 4 ≤ s.tb.ct ∧
       h.fin < (s.brick 0).seq.clk ∧ onlySends h = true) ∧
    (let h := sender 0 true false
     let s := linked (holder 40 h)
     ∃ x ∈ (s.brick 0).held, x.sends = true ∧ x.crit = true ∧ x.dstRank = 1 ∧ x.aOut = 22 % 2 ^ 32) := by decide +kernel

theorem witness_LinkLinesWrite_taken : ∀ q ∈ [(0x21, 0x1FFFC0), (0x32, 0x11FFFC0)],
    let h := { Held.fresh q.1 (BitVec.ofNat 64 q.2) 0 0 0 0 with p := 2, got := [⟨100, 7, false, 9⟩] }
    let s := holder 11 h
    0 ∈ s.ran ∧ (s.brick 0).held = [h] ∧ (h.opc = 0x21 ∨ h.opc = 0x32) ∧ h.wr = true ∧ h.cancelled = false ∧ h.addr % 64 = 0 ∧
      h.addr + 64 * h.count ≤ 2 ^ 21 ∧ 0 < (s.brick 0).seq.clk ∧
      ((List.range h.count).filter fun k => h.p + k / 2 + 8 == (s.brick 0).seq.clk - 1) = [0] := by decide +kernel

/-- A CRED of one line that writes it, with its norm: at its sum, at its write with an MTSR to NRM on that cycle and with none. -/
theorem witness_LinkLinesWrite_sums : ∀ opc ∈ [0x30, 0x31],
    let h := { Held.fresh opc (BitVec.ofNat 64 (0x11FFFC0 + (if opc = 0x30 then 2 ^ 25 else 0))) 0 0 0 0 with p := 2, got := [⟨0, 5, false, 5⟩, ⟨100, 7, false, 7⟩] }
    (let s := holder 9 h
     (s.brick 0).held = [h] ∧ h.isCred = true ∧ h.cancelled = false ∧ 0 < h.count ∧ (s.brick 0).seq.clk = h.p + 0 / 2 + 7 ∧ h.sums = []) ∧
    (let s := holder 11 h
     0 ∈ s.ran ∧ h.wr = true ∧ h.addr % 64 = 0 ∧ h.addr + 64 * h.count ≤ 2 ^ 21 ∧
       ((List.range h.count).filter fun k => h.p + k / 2 + 9 == (s.brick 0).seq.clk) = [0] ∧
       (opc = 0x30 → h.norm = true) ∧ h.count = 1 ∧ h.ev = .none ∧ h.evLines = 0 ∧ h.evCount = 0 ∧ (h.sumAt 0).ev.any = false ∧
       (let g := { h with sums := [⟨0, 0, .overflow, 1, true⟩] }
        g.count = 1 ∧ (g.sumAt 0).ev.any = true) ∧ (s.brick 0).seq.clk = h.p + 9 ∧ (s.brick 0).mtsr = [] ∧
       (let t := s.onBrick 0 fun x => { x with mtsr := [(0x026, 1)] }
        ∃ m ∈ (t.brick 0).mtsr, m.1 = 0x026)) := by decide +kernel

/-- Every atomic and row command on the blocks from HBM address 0, its ring line the last that fits. -/
theorem witness_AtomicCommandsAreHeld : ∀ opc ∈ [0x50, 0x51, 0x52, 0x53, 0x54, 0x55, 0x56, 0x57, 0x58, 0x59, 0x5A],
    let s := copier 0 (if 0x59 ≤ opc then 0x1FFF80 else 0x1FFFC0) 0 0
    let o := soon 2
    let h := command s o opc 2
    guardTrue s.cur o.g = true ∧ wordsSound s o 2 = true ∧ atomicWords h = true ∧ Rules.found (atomicTarget s opc h) = true ∧
      timely s o (if readsRow opc then 0 else (h.atomicLines - 1) / 2 + 1) = true ∧
      atomicWords (command (copier 32 0 0 0) o opc 2) = false ∧ guardTrue s.cur ⟨true, true, 0, 0⟩ = false := by decide +kernel

/-- A brick of task 3 holds an atomic that enters at 14, its channel with no entry. -/
def entrant (opc : Nat) (c : Channel) : State :=
  { holder 14 { Held.fresh opc 0 0 0 0 0 with p := 1, course := 1, got := [⟨0, 5, false, 8⟩] } with
    channels := [(32, c)]
    parts := [(0, { Part.reset with bricks := [0], fcol := 0xFFFF })]
    tb := { State.reset.tb with ct := 13 } }

/-- An entry for the block at HBM address 0. -/
def entryAt0 (at' : Nat) : AtomicEntry :=
  { bank := 0, row := 0, col := 0, ops := [], version := 0, s := at', read := false, old := [], cmds := [⟨0, 3, 0x50, 0, 0, 1⟩], task := 0, ev := .none, evElems := [], oldVer := [] }

/-- A line atomic, a row of adds and a row read enter; a line atomic merges. -/
theorem witness_AtomicsPerform_enter : ∀ q ∈ [(0x50, Channel.reset), (0x58, Channel.reset), (0x59, Channel.reset), (0x50, { Channel.reset with atomics := [entryAt0 60] })],
    let s := entrant q.1 q.2
    let h := { Held.fresh q.1 0 0 0 0 0 with p := 1, course := 1, got := [⟨0, 5, false, 8⟩] }
    let at' := (s.brick 0).seq.c0 + h.course + 64
    let p := s.homePlace h.target
    let same (e : AtomicEntry) : Bool := decide (e.bank = p.bank ∧ e.row = p.row ∧ e.col = p.col ∧ e.read = false)
    (s.brick 0).held = [h] ∧ 0x50 ≤ h.opc ∧ h.opc ≤ 0x5A ∧ h.cancelled = false ∧ h.done = false ∧ (s.brick 0).seq.clk = h.p + 13 ∧
      s.tb.ct < at' ∧ s.slotBroken 0 p.channel at' (if h.opc = 0x58 then 16 else 8) = 0 ∧
      (s.channel p.channel).atomics = q.2.atomics ∧ (q.2.atomics = [] ∨ q.2.atomics.find? same = some (entryAt0 60)) ∧
      tfind (entryAt0 60).ops (lineFor h 0) = none := by decide +kernel

/-- A bank of channel 32 with its row 0 open. -/
def rowOpen : Channel := { Channel.reset with banks := [(0, { Bank.reset with openRow := some 0 })] }

theorem witness_AtomicsPerform_apply :
    (let e := entryAt0 0
     let s := { State.reset with channels := [(32, { rowOpen with atomics := [e] })] }
     (s.channel 32).atomics = [e] ∧ e.read = false ∧ e.s = s.tb.ct ∧ s.blockLost 32 e.bank = false ∧ (s.applicationRead 32 e e.col).1 = 0) ∧
    (let e := { entryAt0 0 with read := true, old := List.replicate 8 (0, false), ops := [(0, ⟨0x50, List.replicate 16 1⟩)] }
     let s := { State.reset with channels := [(32, { rowOpen with atomics := [e] })], tb := { State.reset.tb with ct := 4 } }
     (s.channel 32).atomics = [e] ∧ e.read = true ∧ e.s + 4 = s.tb.ct ∧ s.blockLost 32 e.bank = false ∧ e.version = 0 ∧
       e.cmds = [⟨0, 3, 0x50, 0, 0, 1⟩] ∧ e.old.length = 8 ∧ e.old.any (fun l => l.2) = false ∧ tfind e.ops 7 = none ∧
       tfind e.ops 0 = some ⟨0x50, List.replicate 16 1⟩ ∧ (List.replicate 16 1).length = 512 / classWidth 0x50) := by decide +kernel

/-- At S + 8 and S + 12 of a row with two adds; an entry of an AXOR whose line 7 holds one element of 512 bits. -/
theorem witness_AtomicsPerform_versions :
    (∀ at' ∈ [8, 12], let e := { entryAt0 0 with read := true, version := 2, oldVer := List.replicate 8 (0, false) }
     let s := { State.reset with channels := [(32, { rowOpen with atomics := [e] })], tb := { State.reset.tb with ct := at' } }
     (s.channel 32).atomics = [e] ∧ e.read = true ∧ (e.s + 8 = s.tb.ct ∨ e.s + 12 = s.tb.ct) ∧ s.blockLost 32 e.bank = false ∧
       (s.applicationRead 32 e 3).1 = 0 ∧ e.oldVer.length = 8 ∧ e.oldVer.any (fun l => l.2) = false) ∧
    (let q : LineOp := ⟨0x57, [2 ^ 511]⟩
     q.acc.length = 512 / classWidth q.cls ∧ applied q.cls 3 (2 ^ 511) = 2 ^ 511 + 3) ∧
    State.reset.takesDelta 0 0 0 = true ∧ 32 * parityStack 0 0 + 0 ≠ 32 := by decide +kernel

/-- 16 R298: a row's version word rises by the number of adds, at the column of the row's block. -/
theorem test_version_update :
    let e := { entryAt0 0 with col := 2, read := true, version := 2, oldVer := List.replicate 8 (BitVec.ofNat 512 (0xFFFFFFFF * 2 ^ 64), false) }
    let s := { State.reset with channels := [(32, { rowOpen with atomics := [e] })], tb := { State.reset.tb with ct := 12 } }
    (match exec (.atomicApplication 32) s with
    | .next t => decide (elem 32 (readLine t.hbm (s.blockAddr ⟨1, 0, 0, 0, 3⟩)) 2 = 1 ∧ (t.channel 32).atomics = [])
    | _ => false) = true := by decide +kernel

/-- A row read of admitted words that finds its channel with these entries. -/
def rowReader (opc ct : Nat) (got : List Fetched) (es : List AtomicEntry) : State :=
  { holder 2 { Held.fresh opc 0 (BitVec.ofNat 64 0x1FFF40) 0 0 0 with p := 1, done := true, got := got } with
    channels := [(32, { rowOpen with atomics := es })], tb := { State.reset.tb with ct := ct } }

/-- At S with nothing pending and with a line pending; at S + 4, where a line is poison; at the write of line 0 and of the header. -/
theorem witness_RowReads : ∀ opc ∈ [0x59, 0x5A],
    let h (got : List Fetched) := { Held.fresh opc 0 (BitVec.ofNat 64 0x1FFF40) 0 0 0 with p := 1, done := true, got := got }
    let pending : AtomicEntry := { entryAt0 40 with ops := [(0, ⟨0x51, List.replicate 16 1⟩)], version := 1 }
    (∀ es ∈ [[], [pending]], let s := rowReader opc 0 [] es
     let p := s.homePlace (h []).target
     readsSound s 0 (h []) p ∧ (h []).course = s.tb.ct ∧ (openEntry s p p.col).isSome = (es != [])) ∧
    (∀ psn ∈ [false, true], let g : List Fetched := [⟨0, 7, psn, 0⟩]
     let s := rowReader opc 4 g []
     let p := { s.homePlace (h g).target with col := 3 }
     readsSound s 0 (h g) p ∧ (h g).course + 4 = s.tb.ct ∧ (h g).evLines ≤ 1) ∧
    (∀ k ∈ [0, 1], let g : List Fetched := [⟨0, 7, false, 0⟩, ⟨1, 9, false, 0⟩]
     let base := if opc = 0x5A then 62 else 50
     let s := rowReader opc (base + 4 * k) g []
     holdsOnly s 0 (h g) ∧ readsRow (h g).opc = true ∧ (h g).ringAt % 64 = 0 ∧ (h g).ringAt + 64 * ((h g).atomicLines + 1) ≤ 2 ^ 21 ∧
       ((h g).got.map Fetched.k).Nodup ∧ (h g).got.all (fun x => decide (x.k ≤ (h g).atomicLines)) = true ∧ (h g).atomicLines = 1 ∧
       (if k = 1 then (h g).course + base + 4 = s.tb.ct else (h g).course + base + 0 / 2 = s.tb.ct)) := by
  unfold readsSound holdsOnly
  decide +kernel

/-- UPD with its parameter line the ring's last; UNORM of one group there; the start of an UPD whose norm is of its step. -/
theorem witness_UpdatesPerform_held :
    (let s := copier 0x1FFFC0 0 0 0
     let h := command s (soon 2) 0x40 1
     guardTrue s.cur always = true ∧ wordsSound s (soon 2) 1 = true ∧ h.w0.toNat % 64 = 0 ∧ h.w0.toNat + 64 ≤ 2 ^ 21 ∧ timely s (soon 2) 40 = true ∧
       guardTrue s.cur ⟨true, true, 0, 0⟩ = false ∧ (command (copier 32 0 0 0) (soon 2) 0x40 1).w0.toNat % 64 ≠ 0 ∧
       2 ^ 21 < (command (copier 0x200000 0 0 0) (soon 2) 0x40 1).w0.toNat + 64) ∧
    (let s := copier 0x1FFFC0 0x1FFFC0 0 0
     let h := command s (soon 2) 0x41 2
     wordsSound s (soon 2) 2 = true ∧ h.w0.toNat < 2 ^ 32 ∧ h.w0.getLsbD 31 = false ∧ field h.w0.toNat 21 10 + 1 = 1 ∧
       field h.w0.toNat 0 21 % 64 = 0 ∧ field h.w0.toNat 0 21 + 64 * 1 ≤ 2 ^ 21 ∧ h.w1.toNat % 64 = 0 ∧ h.w1.toNat + 64 ≤ 2 ^ 21 ∧
       timely s (soon 2) ((1 + 1) / 2 + 12) = true) ∧
    (let h := { Held.fresh 0x40 0 0 0 0 0 with p := 1 }
     let s := { on0 fun x => { x with task := some 0, held := [h], seq := { x.seq with clk := 2 }, sys := [(0x026, 0x700000000), (0x027, 1)] } with
       tasks := [(0, { Task.none with steptag := 7 })] }
     (s.brick 0).held = [h] ∧ h.opc = 0x40 ∧ h.cancelled = false ∧ (s.brick 0).seq.clk = h.p + 1 ∧ (sysGet (s.brick 0) 0x027).getLsbD 0 = true ∧
       field (sysGet (s.brick 0) 0x026).toNat 32 32 = s.steptag 0) := by decide +kernel

/-- A UNORM of one line writes; the first group of an SGD update of one group with its planes at 64 and 128 writes. -/
theorem witness_UpdatesPerform_write :
    (let h := { Held.fresh 0x41 0 0x1FFFC0 0 0 0 with p := 1, occ := 14, got := [⟨0, 0, false, 3⟩] }
     let s := holder 15 h
     0 ∈ s.ran ∧ (s.brick 0).held = [h] ∧ h.opc = 0x41 ∧ h.cancelled = false ∧ h.w1.toNat % 64 = 0 ∧ (s.brick 0).seq.clk = h.p + (h.unormLines + 1) / 2 + 13 ∧
       h.occ = h.p + (h.unormLines + 1) / 2 + 12) ∧
    (∀ q ∈ [(0, 0), (0, 1), (1, 0), (1, 1), (1, 2)], let par : Line := ofElems 32 [0, 64, 128, 256, 512, 2 ^ 10 * q.1]
     let h := { Held.fresh 0x40 0 0 0 0 0 with p := 1, got := [⟨100000, par, false, 4⟩] }
     let s := holder (40 + q.2) h
     0 ∈ s.ran ∧ (s.brick 0).held = [h] ∧ h.opc = 0x40 ∧ h.cancelled = false ∧ 0 < h.groups ∧ h.adam = (q.1 == 1) ∧
       (s.brick 0).seq.clk = h.p + 38 + (if h.adam then 8 else 6) * 0 + q.2 + 1 ∧ (∀ i ∈ [1, 2, 3, 4], h.param i % 64 = 0) ∧
       [h.param 1, h.param 2].Pairwise (fun a c => a + 64 ≤ c ∨ c + 64 ≤ a) ∧
       [h.param 3, h.param 3 + 64].Pairwise (fun a c => a + 64 ≤ c ∨ c + 64 ≤ a) ∧
       [h.param 4, h.param 4 + 64].Pairwise (fun a c => a + 64 ≤ c ∨ c + 64 ≤ a)) := by decide +kernel

/-- One granule from the second tier into the last granule of the ring, and the ring's last line to the second tier; the same through
a paged entry, from the last page below 2^48. -/
theorem witness_VariableCopiesAccepted : ∀ q ∈ [(false, 0), (true, 2 ^ 48 - 4096)],
    let paged (s : State) : State := if q.1 then s.onPart 0 fun p => { p with ranges := [(0, ⟨0, 0xFFFFFFFFFFFF, 0, 0xB5⟩)] } else s
    (let s := paged (copier q.2 0x1FF000 0x3F01 2)
     let o := soon 2047
     let h := command s o 0x13 3
     let n := shapeLen h.w2
     let x := sideXlate (s.part (s.partOf s.issue.brick)) h.w0 n false false
     guardTrue s.cur o.g = true ∧ wordsSound s o 3 = true ∧ variableShape h.w2 = true ∧ shapeSk h.w2 = 1 ∧ shapeDk h.w2 = 0 ∧
       h.w0.toNat % 64 = 0 ∧ h.w1.toNat % 4096 = 0 ∧ n % 64 = 0 ∧ h.w1.toNat + 64 * n ≤ 2 ^ 21 ∧ x.cause = 0 ∧ x.paged = q.1 ∧
       (x.paged = true → x.addr + 64 * n ≤ 2 ^ 48) ∧ acceptable s (field o.imm 0 6) (field o.imm 6 5) = true) ∧
    (let s := paged (copier 0x1FFFC0 q.2 0x10 2)
     let o := soon 0
     let h := command s o 0x13 3
     let n := shapeLen h.w2
     let x := sideXlate (s.part (s.partOf s.issue.brick)) h.w1 n true false
     wordsSound s o 3 = true ∧ variableShape h.w2 = true ∧ shapeSk h.w2 = 0 ∧ shapeDk h.w2 = 1 ∧ h.w0.toNat % 64 = 0 ∧
       h.w0.toNat + 64 * n ≤ 2 ^ 21 ∧ h.w1.toNat % 64 = 0 ∧ x.cause = 0 ∧ x.paged = q.1 ∧ (x.paged = true → x.addr + 64 * n ≤ 2 ^ 48) ∧
       acceptable s (field o.imm 0 6) (field o.imm 6 5) = true) := by decide +kernel

theorem witness_BoundaryInstructions :
    guardTrue State.reset.cur always = true ∧ State.reset.freeFor (State.reset.effect 39 3 false (.sreg 63) 0) = true := by decide

/-- A transfer of one granule from the second tier into ring granule 511, under status word 63 and barrier 31. -/
def transfer (grans : List Nat) (status : Word) : State :=
  on0 fun x => { x with var := { x.var with
    queue := [{ opc := 0x13, w0 := 0, w1 := 0x1FF000, w2 := 0x3F01, vs := 63, bar := 31, epoch := 0, writes := false, target := 0, kind := 2, grans := grans, side := 0x1FF000 }]
    vs := [(63, status)]
    barriers := [(31, 1)] } }

/-- The same transfer where it decodes, its block in. -/
def decoding : State :=
  (transfer [0] 1).onBrick 0 fun x => { x with var := { x.var with queue := x.var.queue.map fun c => { c with w2 := 2 ^ 47 + 0x3F01, ready := true } } }

/-- Running and paused; at the end of 2^20 cycles; with its granule in; with a fault of its target at its last byte; one that decodes. -/
theorem witness_VariableTransfers :
    (∀ status ∈ [1, 9], let s := transfer [] (BitVec.ofNat 64 status)
     ∃ c, (s.brick 0).var.queue.find? (fun d => d.vs == 63) = some c ∧ field (statusWord s 0 63) 3 1 = (if status = 9 then 1 else 0) ∧
       shapeDec c.w2 = false ∧ c.opc = 0x13 ∧ c.writes = false ∧ c.yard = false ∧ c.paged = false ∧ c.kind = 2 ∧ c.side % 4096 = 0 ∧
       c.side + 4096 * c.granules ≤ 2 ^ 21 ∧ c.target % 64 = 0 ∧ c.lines = 64 * c.granules ∧ 0 < c.granules ∧ 0 ∉ c.grans ∧
       tget 0 c.parts 0 = 0 ∧ s.varWrites = [] ∧ s.tier2Poison = [] ∧ c.bytes = 4096) ∧
    (let s := { transfer [] 1 with tb := { State.reset.tb with ct := 2 ^ 20 } }
     ∃ c, (s.brick 0).var.queue.find? (fun d => d.vs == 63) = some c ∧ (s.brick 0).waitsSince 0 c = some 0 ∧ 0 + 2 ^ 20 ≤ s.tb.ct ∧
       c.bytes ≤ 2 ^ 32) ∧
    (let s := transfer [0] 1
     ∃ c, (s.brick 0).var.queue.find? (fun d => d.vs == 63) = some c ∧ c.opc = 0x13 ∧ c.grans.length = c.granules ∧
       shapeDec c.w2 = false ∧ c.ports.all (fun q => q.sent) = true ∧ 4095 < c.bytes ∧ c.bytes ≤ 2 ^ 32 ∧ c.writes = false ∧ c.yard = false ∧
       c.side % 64 = 0) ∧
    (∃ c, (decoding.brick 0).var.queue.find? (fun d => d.vs == 63) = some c ∧ c.opc = 0x13 ∧ c.grans.length = c.granules ∧
       shapeDec c.w2 = true ∧ c.ready = true ∧ c.side % 64 = 0 ∧ c.ports.all (fun q => q.sent) = true) := by
  refine ⟨fun status h => ?_, ⟨_, rfl, by decide +kernel⟩, ⟨_, rfl, by decide +kernel⟩, _, rfl, by decide +kernel⟩
  rcases List.mem_cons.1 h with rfl | h
  · exact ⟨_, rfl, by decide +kernel⟩
  · obtain rfl := List.mem_singleton.1 h
    exact ⟨_, rfl, by decide +kernel⟩


/-- The same transfer where it decodes, its block still to come. -/
def gathering : State :=
  (transfer [] 1).onBrick 0 fun x => { x with var := { x.var with queue := x.var.queue.map fun c => { c with w2 := 2 ^ 47 + 2 ^ 39 + 0x3F01 } } }

/-- It meets the hypotheses on a block that comes as poison. -/
theorem witness_VariableTransfers_gather :
    ∃ c, (gathering.brick 0).var.queue.find? (fun d => d.vs == 63) = some c ∧ c.opc = 0x13 ∧ shapeDec c.w2 = true ∧ c.ready = false ∧
      c.side % 64 = 0 ∧ c.writes = false ∧ c.paged = false ∧ c.kind = 2 ∧ 0 < c.granules ∧ 0 ∉ c.grans ∧
      field (statusWord gathering 0 63) 3 1 = 0 := ⟨_, rfl, by decide +kernel⟩

/-- A block that comes as poison ends the transfer at once with code 3, and its output is poison (R126). -/
theorem test_poison_block :
    (match exec (.variableGranule 0 63 0 ⟨0, 64, true, []⟩) gathering with
     | .next t => decide (field (statusWord t 0 63) 0 12 = 0x306 ∧ (t.brick 0).var.queue = [] ∧
         (t.performVars.brick 0).ring.poison.contains (0x1FF000 / 64 + 63) = true)
     | _ => false) = true := by decide +kernel

/-- The transfer into the Yard, whose last byte its target returns as poison, and an end code of the fault. -/
theorem witness_VariableTransfers_yard :
    let s := (transfer [] 1).onBrick 0 fun x => { x with var := { x.var with queue := x.var.queue.map fun c => { c with yard := true } } }
    ∃ c, (s.brick 0).var.queue.find? (fun d => d.vs == 63) = some c ∧ c.opc ≠ 7 ∧ shapeDec c.w2 = false ∧ 4095 < c.bytes ∧ c.bytes ≤ 2 ^ 32 ∧
      c.writes = false ∧ c.yard = true ∧ c.paged = false ∧ c.kind = 2 ∧ 4095 / 4096 ∉ c.grans ∧ field (statusWord s 0 63) 3 1 = 0 ∧
      c.side % 64 = 0 ∧ 10 ∈ [4, 5, 6, 7, 10] :=
  ⟨_, rfl, by decide +kernel⟩

/-- A line of the Yard that comes back as poison outside a piece waits for the banks; a code that is never written does nothing. -/
theorem test_poison_yard :
    (let s := (transfer [] 1).onBrick 0 fun x => { x with var := { x.var with queue := x.var.queue.map fun c => { c with yard := true } } }
     match exec (.variableDone 0 63 ⟨3, 130⟩) s with
     | .next t => decide ((t.brick 0).var.back.map (fun q => (q.1, q.2.lo, q.2.n, q.2.psn)) = [(63, 130, 62, true)] ∧ t.varWrites = [])
     | _ => false) = true ∧ (match exec (.pageFault 0 63 12 0) (transfer [] 1) with
     | .next t => decide ((t.brick 0).var.vs = ((transfer [] 1).brick 0).var.vs)
     | _ => false) = true := by decide +kernel

/-- A task 0 that owns every column runs a timeline on a channel; the command under way is the channel's. -/
def timed (ch ct : Nat) (c : Channel) : State :=
  { State.reset with
    tb := { State.reset.tb with ct := ct }
    channels := [(ch, { c with timelines := [⟨0, [0, 0], 0, 0, 0, true⟩] })]
    parts := [(0, { Part.reset with bricks := [0], fcol := 0xFFFF })]
    tasks := [(0, { Task.none with state := .running, mask := [0], image := { Task.none.image with timelines := [(ch, [0, 0])] } })]
    bricks := [(0, { Brick.reset with task := some 0, running := true })]
    time := ⟨ch, 0, 0, []⟩ }

/-- ACT of the last row of the last bank; PRE and PREA of an open one and PRE of an idle one; GAP; SYNC on its cycle and off it. -/
theorem witness_TimelineOpensAndCloses :
    (let s := timed 767 100 Channel.reset
     lawful s 1 79 false = true ∧ ((here s).bank 79).cracked = false ∧ tget 0 ((here s).bank 79).copyErr 15257 = 0 ∧
       lawful s 7 79 false = true ∧ ((here s).bank 79).openRow = none ∧
       (here s).timelines = [⟨0, [0, 0], 0, 0, 0, true⟩] ∧ s.idlesTooLong (s.tb.ct + 1000 + 1) = false ∧ s.idlesTooLong (s.tb.ct + 1) = false ∧ inColumns (s.part (s.task s.time.task).part).owned 4095 = true) ∧
    (let s := timed 0 100 rowOpen
     lawful s 7 0 false = true ∧ ((here s).bank 0).cracked = false ∧ ((here s).bank 0).openRow ≠ none ∧ lawful s 8 0 false = true) := by decide +kernel

/-- ACT of row 0 where the tracker holds it, where it has room, and where two of its eight entries have the lowest count. -/
theorem witness_TimelineOpensAndCloses_tracker :
    let act (tr : List (Nat × Nat)) := timed 0 100 { Channel.reset with banks := [(0, { Bank.reset with tracker := tr })] }
    (∀ tr ∈ [[(0, 3)], [(7, 1)], [(7, 4), (8, 2), (9, 2), (10, 3), (11, 3), (12, 3), (13, 3), (14, 3)]],
      lawful (act tr) 1 0 false = true ∧ ((here (act tr)).bank 0).cracked = false ∧ tget 0 ((here (act tr)).bank 0).copyErr 0 = 0 ∧
        ((here (act tr)).bank 0).tracker = tr) ∧
    (∃ e ∈ [(0, 3)], e.1 = 0) ∧ (∀ e ∈ [(7, 1)], e.1 ≠ 0 ∧ e.2 ≠ 0) ∧
    (let tr := [(7, 4), (8, 2), (9, 2), (10, 3), (11, 3), (12, 3), (13, 3), (14, 3)]
     (∀ e ∈ tr, e.1 ≠ 0 ∧ 2 ≤ e.2) ∧ tr[1]? = some (8, 2) ∧ (∀ e, tr[0]? = some e → e.2 ≠ 2) ∧ 8 ≤ tr.length) := by
  refine ⟨by decide +kernel, by decide, by decide, by decide, by decide, fun e h => ?_, by decide⟩
  obtain rfl : (7, 4) = e := Option.some.inj h
  decide

theorem witness_TimelineReadsAndRefreshes :
    (let s := timed 0 100 rowOpen
     lawful s 2 0 false = true ∧ (s.readBlock (blockHere s 0 3)).any (fun l => l.2) = false) ∧
    (let s := { timed 0 100 rowOpen with hbmUe := [(timed 0 100 rowOpen).blockAddr (blockHere (timed 0 100 rowOpen) 0 3) / 64] }
     lawful s 2 0 false = true ∧ (s.readBlock (blockHere s 0 3)).any (fun l => l.2) = true ∧ s.faq.length < 256) ∧
    (let s := timed 0 100 Channel.reset
     lawful s 9 79 false = true ∧ ((here s).bank 79).cracked = false ∧ lawful s 16 0 false = true ∧ lawful s 10 79 false = true ∧
       ((here s).bank 79).retire = [] ∧ ((here s).bank 79).tracker = []) := by decide +kernel

/-- An RSW of a bank with a retirement queued, with a hot row, and with no spare row left. -/
theorem witness_TimelineReadsAndRefreshes_switch :
    let bank (k : Bank) := timed 0 100 { Channel.reset with banks := [(79, k)] }
    (∀ k ∈ [{ Bank.reset with retire := [0] }, { Bank.reset with tracker := [(0, State.reset.hrht)] }], let s := bank k
      lawful s 10 79 false = true ∧ (s.channel 0).bank 79 = k ∧ k.cracked = false ∧ Memory.wf s.hbm = true ∧ physRow (here s) 79 0 = 0 ∧
        tget 0 k.copyErr 0 = 0) ∧
    ({ Bank.reset with retire := [0] }).retire.head? = some 0 ∧ hottest { Bank.reset with tracker := [(0, State.reset.hrht)] } 0 State.reset.hrht ∧
    (∀ k ∈ [{ Bank.reset with retire := [0] }, { Bank.reset with tracker := [(0, State.reset.hrht)] }], freeRow k 15258) ∧
    (∀ bad d, (∀ r < 16384, r ∈ bad) → ¬ freeRow { Bank.reset with retire := [0], bad := bad } d) := by
  refine ⟨by decide +kernel, rfl, ⟨0, rfl, fun e h => List.mem_singleton.1 h ▸ Nat.le_refl _, fun j e h => absurd h (Nat.not_lt_zero j)⟩, fun k h => ?_,
    fun bad d e h => h.2.1 (e d h.1)⟩
  simp only [List.mem_cons, List.not_mem_nil, or_false] at h
  rcases h with rfl | rfl <;>
    exact ⟨by omega, List.not_mem_nil, fun e h => absurd h List.not_mem_nil, .inl (by omega)⟩

/-- 04 R84's table: a WRB's write and the next read of the channel, and an ACT and the PRE of its bank. -/
theorem test_timing_table :
    ((traceOf 4 0 100).broken 2 1 111).contains 9 = true ∧ ((traceOf 4 0 100).broken 2 1 112).contains 9 = false ∧
      ((traceOf 1 0 100).broken 7 0 123).contains 2 = true ∧ ((traceOf 1 0 100).broken 7 0 124).contains 2 = false := by decide +kernel

/-- A full entry 63; the stripe of row 0 on channel 0 has its parity in stack 0, which is lost. -/
theorem witness_TimelineWritesAndSets_writes :
    (let c := { Channel.reset with banks := [(0, { Bank.reset with openRow := some 0 })], wbuf := [(63, ⟨List.replicate 8 (9, false), true⟩)] }
     let s := timed 32 100 c
     let t := { s with channels := s.channels ++ [(0, { Channel.reset with banks := [(0, { Bank.reset with cracked := true })] })] }
     (lawful t 3 0 false = true ∧ ((here t).entry 63).full = true ∧
       t.stripe (blockHere t 0 3).ch 0 (blockHere t 0 3).row = .parityLost ∧ ((here t).entry 63).lines.length = 8) ∧
     (lawful s 4 0 false = true ∧ ((here s).entry 63).full = true ∧ ((here s).bank 0).openRow ≠ none ∧ s.isTorn 0 0 0 3 = false ∧
       parityStack 0 0 = 0 ∧ s.time.ch ≠ 0 ∧ s.stripe 0 0 0 = .bonded ∧ (s.channel 0).shadowClaim (s.tb.ct + 96) 0 0 3 = 0)) := by decide +kernel

/-- All 24 stacks' channel 0 with row 0 open in bank 0 and entry 0 full, each with its set command on this cycle; of a WRS, that of
the parity stack has the parity bit. -/
def together (opc : Nat) (ks : List Nat) (ch : Nat) (lost : Option Nat) : State :=
  let full : Channel := { rowOpen with wbuf := [(0, ⟨List.replicate 8 (9, false), true⟩)] }
  { timed ch 100 full with
    channels := (List.range 24).map fun k => (32 * k, if lost = some k then { Channel.reset with banks := [(0, { Bank.reset with cracked := true })] } else full)
    bond := { Bond.reset with lstack := lost.getD 0 }
    time := ⟨ch, 0, 0, ks.map fun k => (32 * k, 0, BitVec.ofNat 32 (opc * 2 ^ 28 + if opc = 5 ∧ k = 0 then 2 ^ 12 else 0))⟩ }

theorem witness_TimelineWritesAndSets_wrs : ∀ q ∈ [(0, 1), (736, 0)],
    let s := together 5 (List.range 24) q.1 none
    let ms := s.setMembers 5 0
    s.setRow 0 0 ms = some 0 ∧ s.stripeOpen 0 0 0 0 = false ∧ lawful s 5 0 (s.isLost (s.time.ch / 32) 0 0) = true ∧ ms.length = 24 ∧
      (∀ k, k < 24 → physRow (s.channel (32 * k + 0)) 0 0 < 16384) ∧
      (∀ d, d < 23 → (settlePoison ((s.channel (32 * dataStack 0 0 d + 0)).entry 0).lines).length = 8) ∧
      (ms.all fun m => !wordParity m.2 || wordEntry m.2 == 0) = true ∧ s.setAgrees 0 0 0 0 ms = true ∧ (ms.filter fun m => wordParity m.2).map (·.1) = [parityStack 0 0] ∧ s.stripe 0 0 0 = .bonded ∧
      s.setReady 5 0 0 ms = true ∧ (q.2 = 0 → ((here s).entry 0).full = true) := by decide +kernel

theorem witness_TimelineWritesAndSets_rdx : ∀ ch ∈ [0, 736],
    let s := together 6 ((List.range 24).filter (· ≠ 5)) ch (some 5)
    let ms := s.setMembers 6 0
    ((here s).bank 0).openRow = some 0 ∧ s.stripeOpen 0 0 0 0 = false ∧ lawful s 6 0 false = true ∧ s.stripe 0 0 0 = .dataLost ∧
      s.setAgrees 0 0 0 0 ms = true ∧ ms.length = 23 ∧ ((List.range 24).filter (· ≠ 5)).all (fun k => ms.any fun m => m.1 == k) = true ∧
      s.setReady 6 0 0 ms = true := by decide +kernel

/-- The columns of a task but the first taken from it. -/
def oneColumn (s : State) : State := s.onPart 0 fun p => { p with fcol := 1 }

/-- Every command breaks a rule: of an open bank and of an idle one; before its time; to parity that is open, or torn; one too many
cycles before a run end; of a cycle that the task does not own. -/
theorem witness_TimelineViolations :
    let soon := { rowOpen with banks := [(0, { Bank.reset with openRow := some 0, actAt := some 99 })] }
    let e : ParityEntry := ⟨0, 0, 0, [], 200, false, [], 0⟩
    let opens := { timed 32 100 rowOpen with channels := (timed 32 100 rowOpen).channels ++ [(0, { rowOpen with parity := [e], torn := [(0, 0, 0)] })] }
    (∀ q ∈ [(timed 0 100 rowOpen, Instr.act 0 0 0, 16, 5), (timed 0 100 Channel.reset, .rd 79 3, 16, 5), (timed 0 100 Channel.reset, .wr 0 0 0, 16, 5),
        (timed 0 100 Channel.reset, .wrb 0 0 0, 16, 5), (timed 0 100 Channel.reset, .wrs 0 0 0 0, 16, 5), (timed 0 100 Channel.reset, .rdx 0 0, 16, 5),
        (timed 0 100 soon, .pre 0, 2, 5), (timed 0 100 soon, .prea, 2, 5), (timed 0 100 rowOpen, .ref 0 0, 16, 5), (timed 0 100 rowOpen, .ref 0 1, 16, 5),
        (timed 0 100 rowOpen, .rsw 0, 16, 5), (oneColumn (timed 0 240 rowOpen), .gap 20, 17, 5), (oneColumn (timed 0 246 rowOpen), .sync 246, 17, 5),
        (oneColumn (timed 0 100 rowOpen), .sync 300, 18, 5), (opens, .wrb 0 0 0, 21, 6), (opens, .rdx 0 0, 21, 6)],
      let k := q.1.task q.1.time.task
      ruleBroken q.1 q.2.1 = some q.2.2 ∧ k.tlStopped = false ∧ q.1.time.ch < 768 ∧ q.1.time.ch ∈ k.image.timelines.map (·.1)) := by decide +kernel

theorem witness_ParityAndLoss :
    (let e : ParityEntry := ⟨0, 0, 3, List.replicate 8 (1, false), 100, false, [], 0⟩
     let s := timed 0 100 { rowOpen with parity := [e] }
     (s.channel 0).parity = [e] ∧ e.read = false ∧ e.s = s.tb.ct ∧ s.applicationBroken 0 e.bank e.row = 0) ∧
    (let e : ParityEntry := ⟨0, 0, 3, List.replicate 8 (1, false), 96, true, List.replicate 8 (2, false), 0⟩
     let s := timed 0 100 { rowOpen with parity := [e] }
     (s.channel 0).parity = [e] ∧ e.read = true ∧ e.s + 4 = s.tb.ct ∧ e.old.length = 8 ∧ e.delta.length = 8) ∧
    ((31 < 32 ∧ State.reset.bondMode.toNat % 4 = 0) ∧ ((State.reset.channel (32 * 23 + 31)).bank 79).cracked = false) ∧
    (let e : ParityEntry := ⟨0, 0, 3, List.replicate 8 (1, false), 100, false, [], 0⟩
     let w : PendWrite := ⟨104, 32, 0, 0, 2, [], [], true, 196, 0⟩
     let s := { timed 0 100 { rowOpen with parity := [e] } with pendWrites := [w] }
     s.bondMode.toNat % 4 = 0 ∧ e ∈ (s.channel 0).parity ∧ w ∈ s.pendWrites ∧ w.emit = true) ∧
    (let s := { State.reset with channels := [(0, { Channel.reset with banks := [(0, { Bank.reset with cracked := true })] })] }
     s.bondMode.toNat % 4 ≠ 0 ∧ ((s.channel (32 * 0 + 31)).bank 79).cracked = false ∧ 0 = s.bond.lstack ∧ 23 ≠ s.bond.lstack ∧
       ((s.channel (32 * 23 + 31)).bank 79).cracked = false) ∧
    (let s := timed 0 100 rowOpen
     (0, s.task 0) ∈ s.tasks ∧ (s.task 0).resident = true ∧ (s.task 0).image.timelines ≠ [] ∧ 0 ∈ (s.task 0).mask ∧ (s.brick 0).task = some 0) := by decide +kernel

theorem witness_ControllersWork :
    ((timed 0 100 rowOpen).task 0).tlStopped = false ∧
    (let s := timed 0 100 { rowOpen with closing := [(0, 0)] }
     (s.channel 0).closing = [(0, 0)] ∧ ((s.channel 0).bank 0).openRow ≠ none ∧ inColumns (s.part (s.task 0).part).owned s.tb.ct = true ∧
       (s.channel 0).broken 7 0 s.tb.ct = [] ∧ s.heldOpen 0 0 0 = false ∧ (s.channel 0).lastCmd ≠ some s.tb.ct) ∧
    (let s := { State.reset with mason := { State.reset.mason with phase := 4 } }
     s.trained = true ∧ s.idleColumn 767 = true ∧ s.tb.ct % 256 + 250 ≤ 256 ∧ ((s.channel 767).bank 0).refreshed = false ∧
       (s.channel 767).broken 16 0 s.tb.ct = [] ∧ (s.channel 767).lastCmd ≠ some s.tb.ct) ∧
    (let s := { State.reset with mason := { State.reset.mason with phase := 4 } }
     s.channelTask s.refown 767 = none ∧ ((List.range 80).all fun i => !((s.channel 767).bank i).missedLast) = true ∧
       s.faq.length + ((List.range 80).filter fun i => !((s.channel 767).bank i).refreshed).length ≤ 256) := by decide +kernel

theorem witness_MasonServesHbm :
    (let s := { State.reset with faq := [0x10000000000000005], bond := { Bond.reset with reports := [7] } }
     s.faq = [0x10000000000000005] ∧ s.bond.reports = [7]) ∧ State.reset.faq = [] ∧ State.reset.bond.reports = [] ∧
    (let s := { State.reset with bond := { Bond.reset with lstack := 1 }, channels := [(32, { Channel.reset with banks := [(79, { Bank.reset with cracked := true })] })] }
     ((s.channel (32 * s.bond.lstack + 0)).bank 79).cracked = true ∧ ((s.channel (32 * s.bond.lstack + 0)).bank 79).relaid = false ∧
       field (tget 0 s.bond.rbmark 0) 23 1 = 0 ∧ field (79 + 2 ^ 23) 23 1 = 1 ∧ 0 % 24 ≠ s.bond.lstack) ∧
    State.reset.badPages.length < 4096 := by decide +kernel

theorem witness_MasonServesHbm_spare :
    ((State.reset.channel (32 * 23 + 31)).bank 79).retire.length <
      ((List.range 16384).filter (isSpare ((State.reset.channel (32 * 23 + 31)).bank 79))).length :=
  List.length_pos_of_mem (List.mem_filter.2 ⟨List.mem_range.2 (by decide : 16383 < 16384), by decide⟩)


/-- An image that reads and one that does not, PHASE 1, 2 and 3 with it; a signature too short fails verification, which whether a sound
one passes is the configuration's; one stack untrained, two untrained, the PLL unlocked; both tables with one entry each. -/
theorem witness_PowerUp :
    (∀ p ∈ [1, 2], let img : Firmware := ⟨true, [], [], [], true, [23]⟩
     let s := onMason State.reset fun m => { m with phase := p, boot := some img }
     img.readable = true ∧ s.mason.boot = some img ∧ s.mason.phase = p ∧ trainCode img = 0 ∧ img.untrained = [23] ∧ img.signature.length ≠ 2420) ∧
    (onMason State.reset fun m => { m with phase := 3, untrained := some 23 }).mason.untrained = some 23 ∧ State.reset.mason.untrained = none ∧
    trainCode ⟨true, [], [], [], true, [1, 2]⟩ = 5 ∧ trainCode ⟨true, [], [], [], false, [1, 2]⟩ = 4 ∧
    (⟨false, [], [], [], true, []⟩ : Firmware).readable = false ∧ (onMason State.reset fun m => { m with phase := 3 }).mason.phase = 3 ∧
    (let ranks := [(0, 0x1000)]
     let paths := [(1, 35, 64)]
     (0, 0x1000) ∈ ranks ∧ (∀ w ∈ ranks.map (·.2), w = 0x1000) ∧ (1, 35, 64) ∈ paths ∧ (∀ q ∈ paths.map (·.2), q = (35, 64)) ∧ ¬ 36 ≤ 35) := by decide

/-- Agents 0 and 2 read with TIE 1, so that agent 2 wins; a held semaphore; a frame at the bound and one above 1.1 times it. -/
theorem witness_SemaphoreServes_PowerClamp_MasonReads :
    (let s := onMason State.reset fun m => { m with hsemTie := 1 }
     s.mason.hsemHeld = false ∧ s.mason.hsemTie < 3 ∧ 2 ∈ [0, 2] ∧ 2 < 3 ∧
       (∀ a ∈ [0, 2], a < 3 ∧ (2 + 3 - s.mason.hsemTie) % 3 ≤ (a + 3 - s.mason.hsemTie) % 3) ∧ (∃ a ∈ [0, 2], a ≠ 2)) ∧
    (let s := onMason State.reset fun m => { m with hsemHeld := true, hsemOwner := 2 }
     s.mason.hsemHeld = true ∧ s.mason.hsemOwner < 3 ∧ s.mason.hsemTie < 3 ∧ s.mason.hsemOwner = 2 ∧ s.mason.hsemOwner ≠ 1) ∧
    (onMason State.reset fun m => { m with pwrOver := true }).mason.pwrOver = true ∧
    (let s := onMason State.reset fun m => { m with pwrRun := 7 }
     s.mason.pwrLimit < 4801 ∧ s.mason.pwrRun = 7 ∧ State.reset.mason.pwrRun < 7 ∧ ¬ s.mason.pwrLimit < 4800 ∧
       10 * 5280 ≤ 11 * s.mason.pwrLimit ∧ 11 * s.mason.pwrLimit < 10 * 5281) ∧
    (45 < 46 ∨ 8 < 8 ∨ 105 < 105) ∧ (onMason State.reset fun m => { m with pwrL2 := true }).mason.pwrL2 = true ∧
    (onMason State.reset fun m => { m with pwrL2 := true }).inputs = [] ∧ (2 ≤ 7 ∧ 7 ≤ 7) ∧
    (onMason State.reset fun m => { m with attesting := true }).mason.attesting = true ∧ State.reset.mason.attesting = false := by decide

/-- A write that is stored and one that is refused, of each register: the rules that they break are told apart by a resident task. -/
theorem witness_PartitionSettings :
    3 < 4 ∧ 2 ^ 64 - 1 < 2 ^ 64 ∧ State.reset.savebase < 2 ^ 64 ∧ ¬ occupied State.reset 7 ∧
      occupied { State.reset with tasks := [(0, { Task.none with part := 7, state := .parked })] } 7 := by
  refine ⟨by decide, by decide, by decide, fun ⟨_, h, _⟩ => absurd h List.not_mem_nil, (0, _), List.mem_singleton.2 rfl, by decide⟩

theorem witness_MasonAndHostWrites :
    (let s := onMason State.reset fun m => { m with phase := 4 }
     1 < 2 ∧ 4 ≤ s.mason.phase ∧ State.reset.mason.phase < 4 ∧ s.mason.admlock = false ∧ (onMason s fun m => { m with admlock := true }).mason.admlock = true) ∧
    (∀ j, j < 16 → ¬ (0x00FF / 2 ^ j % 2 = 1 ∧ 0xFF00 / 2 ^ j % 2 = 1)) ∧ ¬ (∀ j, j < 16 → ¬ (1 / 2 ^ j % 2 = 1 ∧ 1 / 2 ^ j % 2 = 1)) ∧
    (State.reset.brick 767).trap.trapped = false ∧ ((on0 fun x => { x with trap := { x.trap with trapped := true } }).brick 0).trap.trapped = true := by decide

/-- A task of step 7 runs on brick 5 of a package of rank 1. -/
def stepTask : State :=
  { State.reset with rank := 1, tasks := [(3, { Task.none with state := .running, mask := [5], steptag := 7 })], bricks := [(5, { Brick.reset with task := some 3, running := true })] }

theorem witness_CourseTimeAndNotices_tick :
    tickHeld { stepTask with tb := { State.reset.tb with ct := 9, phi := 16 }, bricks := [(5, { Brick.reset with task := some 3, frz := { Freeze.reset with driftUntil := 9 } })] } ∧
      ¬ tickHeld { stepTask with tb := { State.reset.tb with phi := 15 } } ∧ ¬ tickHeld { stepTask with tb := { State.reset.tb with phi := 16 } } := by
  refine ⟨⟨by decide, by decide, fun q h _ => ?_⟩, fun h => absurd h.1 (by decide), fun h => ?_⟩
  · obtain rfl := List.mem_singleton.1 h
    decide
  · exact absurd (h.2.2 (3, _) (List.mem_singleton.2 rfl) (by decide) 5 (by decide)).1 (by decide)

theorem witness_CourseTimeAndNotices_task : ∀ tag ∈ [7, 0xFFFFFFFF], namesTask stepTask tag 3 ∧ slipsOn stepTask tag 5 ∧ steady (stepTask.brick 5) := by
  intro tag h
  have n : namesTask stepTask tag 3 := by
    refine ⟨List.mem_singleton.2 rfl, by decide, by decide, ?_⟩
    rcases List.mem_cons.1 h with rfl | h
    · exact .inl rfl
    · exact .inr (List.mem_singleton.1 h)
  exact ⟨n, ⟨3, n, by decide, rfl⟩, by decide, fun f hf => nomatch hf⟩

/-- A root; a package that has no root's station, whose parent has been silent for two periods; one whose markers have come. -/
theorem witness_CourseTimeAndNotices_roots :
    let root := { State.reset with ranktbl := [(0, 0x1000)] }
    roots root ∧ root.tb.ct % 4096 = 0 ∧ ¬ roots stepTask ∧
    parentLost { stepTask with tb := { State.reset.tb with ct := 8202, lm := 6, lastMarker := some 0, parent := some 3 } } 3 ∧
    marked { stepTask with tb := { State.reset.tb with ct := 4099, lastMarker := some 0 } } ∧
    (∀ r, ¬ parentLost stepTask r) := by
  refine ⟨⟨by decide, by decide⟩, by decide, fun h => absurd h.1 (by decide), ⟨0, rfl, rfl, fun h => absurd h.1 (by decide), by decide⟩, ⟨0, rfl, by decide⟩, ?_⟩
  rintro r ⟨m, h, -⟩
  exact absurd h (by simp [stepTask, State.reset, TimeBase.reset])

theorem witness_CourseTimeAndNotices_others : Out.notice 0xFFFFFFFF 2 stepTask.tb.ct ∉ stepTask.out ∧
      (16 * ((stepTask.tb.ct : Int) - 0 - stepTask.tb.lm) + 15 < 64) ∧
      (let s := { stepTask with tb := { State.reset.tb with ct := 4 } }
       64 ≤ 16 * ((s.tb.ct : Int) - 0 - s.tb.lm) + 0) ∧
      (stepTask.brick 5).trap.trapped = false ∧
      (let x := { Brick.reset with sys := [(0x026, 0x700000000), (0x027, 1)] }
       field (sysGet x 0x026).toNat 32 32 ≠ 0 ∧ field (sysGet x 0x026).toNat 32 32 = 7) ∧
      (let paths := [(0, 35, 0), (3071, 0, 16288)]
       (paths.map (·.1)).Nodup ∧ ∀ p ∈ paths, p.2.1 < 36 ∧ (p.2.2 + 15) / 16 + 5 < 1024) := by decide

/-- A launch of launch id 1 on brick 767 through queue 31, at once, with an image of one bundle. -/
def message (asap : Bool) (start : Word) : List Word :=
  [0x1600000101, if asap then 0x8F800000001 else 0xF800000001, start, 0, 0x100000000, 0] ++ List.replicate 11 0 ++ [0x8000000000000000] ++
    [3, 0x200000001, 1, 0]

def launchOf (asap : Bool) (start : Nat) : LaunchMsg :=
  { lid := 1, part := 0, queue := 31, rank := 0, asap := asap, timed := false, start := start, widths := 0, steptag := 0, run := 1, wbase := 0, mask := [767], args := [], image := some [0x200000001, 1, 0], digest := 0x100000002000000010000000000000003 }

/-- A package that has booted, with that brick in partition 0, and whose port 0 has every column for control. -/
def booted (phase : Nat) : State :=
  { State.reset with mason := { State.reset.mason with phase := phase, admitReg := [(0, 0xFFFF0000)] }, parts := [(0, { Part.reset with bricks := [767] })], ranktbl := [(0, 0x1000)] }

/-- A port whose control columns hold the present one, and one whose do not. -/
theorem witness_LaunchesAndRequests_reports :
    let s := { State.reset with mason := { State.reset.mason with phase := 4, admitReg := [(1, 0x10000)] } }
    inControl s 1 s.tb.ct ∧ ¬ inControl s 0 s.tb.ct := by
  unfold inControl hasCol
  decide

theorem witness_LaunchesAndRequests_messages :
    inControl (booted 3) 0 0 ∧ inControl (booted 4) 0 0 ∧ (booted 3).mason.phase < 4 ∧ 4 ≤ (booted 4).mason.phase ∧ parseLaunch [] = none ∧ parseLaunch (message true 0) = some (launchOf true 0) ∧
      parseLaunch (message false 17920) = some (launchOf false 17920) ∧ parseImage [0x200000001, 1] = none ∧
      (parseImage [0x200000001, 1, 0]).isSome = true := by
  unfold inControl hasCol
  decide +kernel

/-- 24 R400: a launch before PHASE 4, where no column is admitted yet, is answered with reason 9. -/
theorem test_launch_before_ready :
    (match exec (.launch 0 []) State.reset with
    | .next t => decide (t.out = [reportOf 0 [] 3 9 0 0])
    | _ => false) = true := by decide +kernel

/-- Every check passes, for a launch at once and at the earliest start cycle; one that starts a cycle earlier has reason 6. -/
theorem witness_LaunchesAndRequests_accepted : ∀ img, parseImage [0x200000001, 1, 0] = some img → ∀ q ∈ [(true, 0), (false, 17920)],
    reasonIs (refusals (booted 4) (launchOf q.1 q.2) img true) 0 ∧ reasonIs (refusals (booted 4) (launchOf false 17919) img true) 6 := by
  intro img h q hq
  obtain rfl : { Task.none.image with stream := [1, 0] } = img := Option.some.inj (by rw [← h]; decide +kernel)
  simp only [List.mem_cons, List.not_mem_nil, or_false] at hq
  rcases hq with rfl | rfl
  all_goals
    simp only [reasonIs, refusals]
    refine ⟨.inr ⟨by decide, .inr ⟨by decide, .inr ⟨?_, .inr ⟨by decide, .inr ⟨by decide, .inr ⟨by decide, .inr ⟨by decide, .inr ⟨by decide, .inr ⟨by decide, trivial⟩⟩⟩⟩⟩⟩⟩⟩⟩,
      .inr ⟨by decide, .inr ⟨by decide, .inr ⟨?_, .inr ⟨by decide, .inl ⟨by decide, trivial⟩⟩⟩⟩⟩⟩
    all_goals exact fun h => h.elim (by decide) fun ⟨_, h, _⟩ => absurd h (by simp [Task.none])

/-- Launch 9 runs on brick 0 and a request names it. -/
theorem witness_LaunchesAndRequests_requests :
    let s := { State.reset with tasks := [(3, { Task.none with state := .running, launchId := 9, mask := [0] })], bricks := [(0, { Brick.reset with task := some 3, running := true })] }
    listed s 3 ∧ requestFor [0x200000102, 9] (3, s.task 3) ∧ (∀ q ∈ s.tasks, requestFor [0x200000102, 9] q → q.1 = 3) ∧
      (∀ b ∈ (s.task 3).mask, (s.brick b).trap.trapped = false) ∧ (∃ b ∈ (s.task 3).mask, (s.brick b).seq.ended = false) ∧
      (s.task 3).preempt = none ∧ ∀ q ∈ s.tasks, ¬ requestFor [0x200000102, 8] q := by
  refine ⟨List.mem_singleton.2 rfl, ⟨by decide, by decide, by decide, by decide, by decide⟩, ?_, by decide, by decide, by decide, ?_⟩
  · intro q h _
    obtain rfl := List.mem_singleton.1 h
    rfl
  · intro q h hr
    obtain rfl := List.mem_singleton.1 h
    exact absurd hr.2.2.2.1 (by decide)

/-- Task 1 waits for its start on brick 0; what the others are decides. -/
def waiting (others : Table Task) : State :=
  { State.reset with tasks := (1, { Task.none with state := .startPending, mask := [0], start := 90000 }) :: others }

/-- A task that holds brick 0. -/
def holds (st : TaskState) (timed : Bool) : Task := { Task.none with state := st, mask := [0], timed := timed }

theorem witness_TasksStartAndStop_take :
    ((waiting []).task 1).state = .startPending ∧
    (∃ q : Nat × Task, q ∈ (waiting [(2, holds .running true)]).tasks ∧ q.1 ≠ 1 ∧ q.2.active = true ∧ shareBrick (waiting [(2, holds .running true)]) q.2 ((waiting [(2, holds .running true)]).task 1) ∧ q.2.timed = true) ∧
    crowded (waiting [(2, holds .parked false), (3, holds .parked false), (4, holds .parked false), (5, holds .parked false)]) 1 ∧
    ¬ crowded (waiting [(2, holds .parked false), (3, holds .parked false), (4, holds .running false)]) 1 ∧
    (let s := waiting [(2, holds .running false)]
     (2, s.task 2) ∈ s.tasks ∧ shareBrick s (s.task 2) (s.task 1) ∧ (s.task 2).active = true ∧ (s.task 2).timed = false ∧ (s.task 2).state = .running) := by
  refine ⟨by decide, ⟨(2, holds .running true), by decide, by decide, by decide, ⟨0, by decide, by decide, by decide⟩, rfl⟩, ⟨0, by decide, by decide⟩, ?_,
    by decide, ⟨0, by decide, by decide, by decide⟩, by decide, by decide, by decide⟩
  rintro ⟨b, hb, h⟩
  obtain rfl : b = 0 := by simpa [waiting, State.task, tget, tfind, Task.none] using hb
  exact absurd h (by decide)

/-- A start launch at home and one whose brick has left its partition; a rival that has been placed and not run stays. -/
theorem witness_TasksStartAndStop_home :
    let s := { waiting [(2, holds .placed false)] with parts := [(0, { Part.reset with bricks := [0] })] }
    (s.task 1).state = .startPending ∧ atHome s 1 ∧ ¬ atHome (waiting []) 1 ∧ (s.task 2).active = true ∧ shareBrick s (s.task 2) (s.task 1) ∧
      (s.task 2).state = .placed ∧ (s.task 2).asap = false ∧ (s.task 2).saved = [] ∧ ¬ crowded s 1 := by
  refine ⟨by decide, by unfold atHome; decide, by unfold atHome; decide, by decide, ⟨0, by decide, by decide, by decide⟩, by decide, by decide, by decide, ?_⟩
  rintro ⟨b, hb, h⟩
  obtain rfl : b = 0 := by simpa [waiting, State.task, tget, tfind, Task.none] using hb
  exact absurd h (by decide)

/-- A chosen task starts fresh, and one from its saved brick. -/
theorem witness_TasksStartAndStop_start : ∀ saved ∈ [[], [(0, Brick.reset)]],
    let s := { State.reset with tasks := [(1, { holds .placed false with saved := saved })], parts := [(0, { Part.reset with bricks := [0] })] }
    let x := s.task 1
    x.state = .placed ∧ (∀ b ∈ x.mask, b ∈ (s.part x.part).bricks) ∧ x.saved = saved ∧ x.mask.Nodup ∧ (x.saved.map (·.1)).Nodup ∧ (∀ q ∈ x.saved, q.1 ∈ x.mask) ∧
      (∀ b ∈ x.mask, (s.brick b).task = none) ∧ (∀ q ∈ x.saved, q.2.trap.trapped = false ∧ q.2.trap.pend = []) := by decide

/-- R372's partition: queues 3, 6 and 9 of rank 5 and queue 12 of rank 2 with MISS 9, on the cycle of the yield of queue 3's task. -/
def offered : State :=
  let t (r : Nat) : Task := { Task.none with part := 1, state := .queued, mask := [0], run := r }
  let q (r m h : Nat) : Queue := { Queue.reset with base := r, miss := m, order := [h] }
  { State.reset with
    tb := { State.reset.tb with ct := 1023040 }
    tasks := [(3, { t 30000 with state := .running }), (6, t 10000), (9, t 8000), (12, t 5000)]
    parts := [(1, { Part.reset with bricks := [0], slice := 16, rrp := [(5, 28)], queues := [(6, q 5 0 6), (9, q 5 0 9), (12, q 2 9 12)] })] }

/-- 21 R372's example: queue 6's head makes its first issue at 1,039,680, and the yielding task parks. -/
theorem test_offer_example :
    let s := { offered with bricks := [(0, { Brick.reset with task := some 3, frz := { Freeze.reset with yielded := some 30000 } })] }
    let t := s.makeOffer (1, some 3, [0])
    (t.task 6).state = .placed ∧ (t.task 6).firstIssue = 1039680 ∧ pointer t 1 5 = 6 ∧ (t.task 3).slots ≠ [] ∧ pointer s 1 5 = 3 := by decide +kernel

/-- The arbiter's choice of that example, and an offer of no bricks, which no head fits. -/
theorem witness_TasksStartAndStop_offer :
    picks offered 1 [0] False 6 6 ∧ (∀ q h, ¬ headFits offered 1 [] False q h) ∧ offered.mason.pwrL2 = false := by
  have fits : ∀ h ∈ [6, 9, 12], fitsOffer offered 1 [0] False h := by
    intro h hh
    have none : ∀ u ∈ offered.tasks, u.2.state ≠ .startPending := by decide
    refine ⟨?_, .inl ?_, ?_, fun u hu e => absurd e (none u hu), ?_⟩ <;> revert h <;> decide +kernel
  have heads : ∀ q < 32, ∀ h, ((offered.part 1).queue q).order.head? = some h → q = h ∧ (h = 6 ∨ h = 9 ∨ h = 12) := by
    intro q hq h hh
    have : ((offered.part 1).queue q).order.head? = if q = 6 ∨ q = 9 ∨ q = 12 then some q else none := by
      clear hh; revert q; decide +kernel
    rw [this] at hh
    split at hh <;> simp_all
  refine ⟨⟨⟨by decide, by decide, fits 6 (by decide)⟩, ?_⟩, ?_, rfl⟩
  · rintro q h ⟨hq, hh, -⟩
    obtain ⟨rfl, h⟩ := heads q hq h hh
    rcases h with rfl | rfl | rfl <;> decide +kernel
  · rintro q h ⟨hq, hh, ⟨hm, -⟩⟩
    obtain ⟨rfl, h⟩ := heads q hq h hh
    rcases h with rfl | rfl | rfl <;> exact absurd (hm 0 (by decide)) (by decide)

/-- A forced pre-emption of a task with no timelines, and of a bound one whose timelines run. -/
theorem witness_TasksStartAndStop_forced :
    (let s := { State.reset with tasks := [(3, holds .running false)], bricks := [(0, { Brick.reset with task := some 3 })] }
     (s.brick 0).task = some 3 ∧ (s.task 3).image.timelines = []) ∧
    (let s := timed 0 100 Channel.reset
     (s.brick 0).task = some 0 ∧ (s.task 0).image.timelines ≠ [] ∧ (s.task 0).tlStopped = false ∧ (s.task 0).bound = true) := by decide


/-- A brick 0 with a fault to deliver; task 3, not bound, runs on it and on brick 1. -/
def faulty (trapped : Bool) (code : Nat) (pend : List Late) : State :=
  let f : Late := ⟨0x0B, 63, true, false, 8, 255, 100, 0, [(0x048, 5)], false, false⟩
  let x := { Brick.reset with task := some 3, running := true, trap := { Trap.reset with trapped := trapped, code := code, found := if code = 0 ∨ ¬ pend = [] then [f] else [], pend := pend } }
  { State.reset with tasks := [(3, { Task.none with state := .running, mask := [0, 1] })], bricks := [(0, x), (1, { x with trap := Trap.reset })] }

theorem witness_TrapsAndActions_traps :
    (let s := faulty false 0 []
     (s.brick 0).trap.found ≠ [] ∧ (s.brick 0).trap.trapped = false ∧ (s.brick 0).flights.length ≤ 256) ∧
    (let f : Late := ⟨0x0B, 63, true, false, 8, 255, 100, 0, [], false, false⟩
     let s := faulty true 0x0B (List.replicate 8 f)
     (s.brick 0).trap.found ≠ [] ∧ (s.brick 0).trap.trapped = true ∧ (s.brick 0).trap.pend ≠ []) ∧ (State.reset.brick 0).trap.pend = [] ∧ (State.reset.brick 0).trap.found = [] := by decide

/-- 22 R381, R395: a fault found on the cycle before the resume is kept, and a bound task's pre-emption goes before it. -/
theorem test_resume_order :
    let f : Late := ⟨0x0B, 63, true, false, 8, 255, 100, 0, [], false, false⟩
    let p : Late := { f with code := 0x0C, preempts := true }
    let s := { State.reset with bricks := [(0, { Brick.reset with trap := { Trap.reset with trapped := true, code := 0x0A, pend := [p], found := [f] } })] }
    ((s.resumeTrap 0).brick 0).trap.code = 0x0C ∧ ((s.resumeTrap 0).brick 0).trap.pend = [f] := by decide +kernel

/-- A fault and a pre-emption of one cycle, and with none. -/
theorem witness_TrapsAndActions_preempted :
    let s := faulty false 0 []
    let t := { s with tasks := [(3, { s.task 3 with preempt := some s.tb.ct })] }
    preemptedNow t 0 3 ∧ (t.task 3).bound = false ∧ (∀ k, ¬ preemptedNow s 0 k) ∧
      (∃ f ∈ (s.brick 0).trap.found, f.regs = [(0x048, 5)]) ∧ (t.brick 0).trap.pend.length + (t.brick 0).trap.found.length ≤ 8 := by
  refine ⟨⟨rfl, ⟨_, rfl, Nat.le_refl _⟩, by decide, by decide, by decide⟩, by decide, ?_, by decide, by decide⟩
  rintro k ⟨h, ⟨p, h', -⟩, -⟩
  obtain rfl : 3 = k := Option.some.inj h
  exact absurd h' (by simp [faulty, State.task, tget, tfind, Task.none])

/-- The same of a bound task with a timeline section, which was due earlier. -/
theorem witness_TrapsAndActions_bound :
    let s := timed 0 100 Channel.reset
    let f : Late := ⟨0x0B, 63, true, false, 8, 255, 100, 0, [], false, false⟩
    let t := { s with tasks := [(0, { s.task 0 with preempt := some 99 })], bricks := [(0, { s.brick 0 with trap := { Trap.reset with found := [f] } })] }
    preemptedNow t 0 0 ∧ (t.task 0).bound = true ∧ (t.task 0).image.timelines ≠ [] ∧ (t.brick 0).trap.trapped = false := by
  exact ⟨⟨rfl, ⟨99, rfl, by decide⟩, by decide, by decide, by decide⟩, by decide, by decide, by decide⟩

/-- The first stripe of a package as reset leaves it, and the last one of a bank. -/
theorem witness_TrapsAndActions_images : ∀ k ∈ [0, 156241919],
    let s := State.reset
    s.stripe (k % 32) (k / 128 % 80) (k / 10240) = .bonded ∧ (∀ st, st < 24 → s.isLost st (k % 32) (k / 128 % 80) = false) ∧
      (∀ st, st < 24 → physRow (s.channel (32 * st + k % 32)) (k / 128 % 80) (k / 10240) < 16384) := by decide +kernel

/-- Every stripe of slot 0 of brick 0 of such a package, whose image lies in HBM. -/
theorem witness_TrapsAndActions_slot :
    (∀ k, k < 296 → State.reset.stripe (k % 32) (k / 128 % 80) (k / 10240) = .bonded ∧
      (∀ st, st < 24 → State.reset.isLost st (k % 32) (k / 128 % 80) = false) ∧
      ∀ st, st < 24 → physRow (State.reset.channel (32 * st + k % 32)) (k / 128 % 80) (k / 10240) < 16384) ∧
    State.reset.savebase + 54272 * 64 ≤ 11776 * 296 ∧ State.reset.savebase + 64 * (54271 + 1) ≤ 1839904849920 := by decide +kernel

/-- R237: a record joins a queue after a drop, and is dropped from a full one. -/
theorem test_records_join :
    (flushPollen { Brick.reset with pollenNew := [(3, 5), (1, 4)], pollenLoss := true }).pollen = [4 ||| BitVec.ofNat 128 (2 ^ 14), 5] ∧
    (tget 0 (flushPollen { Brick.reset with pollenNew := [(3, 5)], pollen := List.replicate 256 1 }).sys 0x022) = 1 := by decide +kernel

/-- Actions on a brick that is not trapped, on one with a course slip, on one that may resume, alone and with a trapped sibling; on a
bound task's brick. -/
theorem witness_TrapsAndActions_actions :
    ((faulty false 0 []).brick 0).task = some 3 ∧ ((faulty false 0 []).brick 0).trap.trapped = false ∧
    ((faulty true 0x0C []).brick 0).trap.code ∈ [0x0C, 0x05, 0x06, 0x10] ∧
    (let s := faulty true 0x0B []
     (s.brick 0).trap.trapped = true ∧ (s.brick 0).trap.code ∉ [0x0C, 0x05, 0x06, 0x10] ∧ (s.task 3).image.timelines = [] ∧ 0 ∈ (s.task 3).mask ∧
       (s.task 3).bound = false ∧ (s.brick 1).trap.trapped = false) ∧
    (let s := faulty true 0x0B []
     let t := { s with bricks := [(0, s.brick 0), (1, s.brick 0)] }
     (t.task 3).bound = false ∧ 1 ∈ (t.task 3).mask ∧ (t.brick 1).task = some 3 ∧ (t.brick 1).trap.trapped = true ∧ (t.brick 1).trap.code ≠ 0x10 ∧
       (t.brick 1).trap.asked = false) ∧
    (let s := timed 0 100 Channel.reset
     let t := { s with bricks := [(0, { s.brick 0 with trap := { Trap.reset with trapped := true, code := 0x0B } })] }
     (t.brick 0).trap.trapped = true ∧ (t.task 0).bound = true ∧ (t.task 0).image.timelines ≠ [] ∧ (t.task 0).tlStopped = false) := by decide

/-- A brick 0 with a bundle stream, on a Course cycle. -/
def streaming (ws : List Nat) (ct : Nat) (f : Seq → Seq) : State :=
  { on0 fun x => { x with running := true, stream := ws.map (BitVec.ofNat 64), seq := f x.seq } with tb := { State.reset.tb with ct := ct } }

theorem witness_BundlesIssue :
    ((streaming [0] 0 fun q => { q with ended := true }).brick 0).seq.ended = true ∧
    (let bundle (ws : List Nat) (s : State) := bundleAt (s.brick 0) (s.brick 0).seq.pc = bundleAt (streaming ws 0 id).cur 0 ∧ (s.brick 0).seq.ended = false ∧ (s.brick 0).task = none
     (bundle [0] (streaming [0] 0 fun q => { q with gapLeft := some 0 }) ∧ bundle [0] (streaming [0] 0 fun q => { q with gapLeft := some 15 }) ∧
       bundle [] (streaming [] 0 id) ∧ fetchOk (streaming [] 0 id).cur (bundleAt (streaming [] 0 id).cur 0) = false) ∧
     (let s := streaming [0x0002000000000000] 0 id
      fetchOk s.cur (bundleAt s.cur 0) = true ∧ elided s.cur (bundleAt s.cur 0) = true) ∧
     (∀ h ∈ [0, 0x00F0000000000000], let s := streaming [h] 0 id
      let u := bundleAt s.cur 0
      fetchOk s.cur u = true ∧ elided s.cur u = false ∧ settling u = false ∧ u.gap = (if h = 0 then 0 else 15)) ∧
     (∀ ct ∈ [399, 400, 401], let s := streaming [0x0004000000000001, 0x0006000018000190] ct fun q => { q with opening := false }
      let u := bundleAt s.cur 0
      fetchOk s.cur u = true ∧ elided s.cur u = false ∧ settling u = true ∧ settleDue s 0 u = 400) ∧
     (let s := streaming [0x0004000000000001, 0x0006000018000190] 401 fun q => { q with opening := false, arrived := some 399, offset := 400 }
      let u := bundleAt s.cur 0
      fetchOk s.cur u = true ∧ elided s.cur u = false ∧ settling u = true ∧ settleDue s 0 u = 400 ∧ s.cur.seq.arrived = some 399)) := by decide +kernel

/-- 08 R170: a settle bundle that was reached in time and that a freeze held over its cycle issues, with no course slip. -/
theorem test_settle_after_freeze :
    (match exec (.bundleIssue 0) (streaming [0x0004000000000001, 0x0006000018000190] 401 fun q => { q with opening := false, arrived := some 399, offset := 400 }) with
     | .next t => decide (t.issue.found = [] ∧ t.issue.active = true)
     | _ => false) = true := by decide +kernel

theorem witness_BundlesIssue_commit :
    (∀ l ∈ [true, false], let s := { streaming [0] 0 id with agenda := [.commit], issue := { IssueCtx.reset with active := true, last := l } }
     s.mason.pwrL2 = false ∧ s.issue.wait = false ∧ s.issue.found = [] ∧ s.issue.clears = [] ∧ s.issue.leave = none ∧ s.issue.jump = none ∧
       (s.brick s.issue.brick).seq.depth = 0) ∧
    (let s := { streaming [0] 0 id with agenda := [.commit], issue := { IssueCtx.reset with active := true, found := [⟨0x04, 5, []⟩, ⟨0x01, 6, []⟩] } }
     s.issue.found ≠ [] ∧ (s.issue.start.getD (s.brick 0)).trap.found = [] ∧ (s.issue.saved.getD (s.brick 0)).trap.found = [] ∧
       (s.issue.saved.getD (s.brick 0)).held = [] ∧ s.before = []) := by decide

/-- An issue with a fault beside a late one; one whose task runs on a second brick, which was as it stood before the cycle. -/
theorem witness_BundlesIssue_faults :
    let f : Late := ⟨0x0B, 63, true, false, 8, 255, 100, 0, [], false, false⟩
    let x := { Brick.reset with task := some 3, running := true }
    let s := { State.reset with
      tasks := [(3, { Task.none with state := .running, mask := [0, 1] })], bricks := [(0, x), (1, x)]
      issue := { IssueCtx.reset with active := true, found := [⟨0x01, 6, []⟩], start := some x, saved := some x }
      before := [(1, x)], agenda := [.commit] }
    let t := { s with issue := { s.issue with saved := some { x with trap := { x.trap with found := [f] } } } }
    (t.issue.found ≠ [] ∧ (t.issue.saved.getD x).trap.found.length ≠ (t.issue.start.getD x).trap.found.length) ∧
    (s.issue.saved.getD x).held = [] ∧ s.channels = [] ∧ (s.brick 1).trap.trapped = false ∧
    (let u := s.onBrick 1 fun x => { x with trap := { x.trap with trapped := true, code := 0x10 } }
     u.before = [(1, x)] ∧ (u.brick 1).trap.trapped = true) ∧ s.before = [(1, x)] ∧ (s.issue.start.getD x).task = some 3 ∧ (s.brick 0).task = some 3 ∧
      (s.task 3).bound = false ∧ 1 ∈ (s.task 3).mask ∧ x.frz.ceUntil = 0 ∧ x.frz.driftUntil = 0 := by decide

/-- An effect in flight on brick 0, due at 9. -/
def inFlight (d : Dest) : State :=
  on0 fun x => { x with flights := [{ due := 9, slot := 3, pc := 0, issue := 0, dest := d, latch := true, value := 7, mask := BitVec.allOnes 64, ev := .none, evMask := 0 }], seq := { x.seq with clk := 10 } }

theorem witness_ResultsLand : ∀ q ∈ [(Dest.sreg 63, 0), (.qpred 15, 0), (.vreg 7 1023, 0), (.ppred 7 15, 0), (.drive true 15 17, 0), (.tag 511, 2),
      (.ringLine 255 4095, 2), (.ringStore 0x1FFFF8 3, 2), (.readWord 0x1FFFF8 3 false 63 12, 1), (.readLine true 15 14 7 4095 12, 1),
      (.readStore 0x1FFFF8 2 10, 1), (.sys 0x02D, 0), (.sys 0x023, 0), (.pattern 1 63, 0), (.bankSwap, 0), (.claim 15, 0), (.release 15, 0),
      (.accSeg true 15 63 3, 2), (.accSeg false 0 0 0, 2), (.accZero 15, 2)],
    ((inFlight q.1).brick 0).flights.length = 1 ∧ q.1.phase = q.2 ∧ (if q.2 = 2 then 9 < ((inFlight q.1).brick 0).seq.clk else 9 ≤ ((inFlight q.1).brick 0).seq.clk) ∧
      ((inFlight q.1).brick 0).seq.clk < 12 ∧ ((inFlight q.1).brick 0).ring.ce = [] ∧ ((inFlight q.1).brick 0).ring.ue = [] ∧
      ((inFlight q.1).brick 0).ring.poison = [] := by decide

/-- A read whose lane cycle has come, and reads of a poisoned line. -/
theorem witness_ResultsLand_poison : ∀ d ∈ [Dest.readLine true 15 14 7 4095 10, .readStore 0x1FFFF8 2 12, .readWord 0x1FFFF8 3 false 63 12],
    let s := (inFlight d).onBrick 0 fun x => { x with ring := { x.ring with poison := [32767] } }
    (s.brick 0).flights.length = 1 ∧ d.phase = 1 ∧ (s.brick 0).ring.ce = [] ∧ (s.brick 0).task = none ∧ 4096 * 7 + 4095 ∈ (s.brick 0).ring.poison ∧
      0x1FFFF8 / 2 ^ 18 = 7 ∧ 0x1FFFF8 / 64 % 4096 = 4095 ∧ (s.brick 0).seq.clk = 10 := by decide

/-- A product, a drain and a fill that complete, a product whose result its successor took, and each with poison; a fill with taps to come. -/
def matrixDue (opc fmt left : Nat) (psn super : Bool) : State :=
  on0 fun x => { x with
    seq := { x.seq with clk := 10 }
    mx := { x.mx with flights := [{ due := 10, opc := opc, dst := 14, fmt := fmt, words := List.replicate (if fmt = 2 then 8192 else 4096) 5, lines := [7, 9]
                                    aw := true, lane := 12, width := 4, left := left, poison := psn, superseded := super, ev := .none, rows := 0, pc := 0, issue := 0 }] } }

theorem witness_ResultsLand_matrix : ∀ q ∈ [(1, 0, false, true), (2, 2, true, false), (4, 1, true, false), (7, 0, false, false)],
    let s := matrixDue q.1 q.2.1 0 q.2.2.1 q.2.2.2
    (s.brick 0).mx.flights.length = 1 ∧ (s.brick 0).task = none ∧ ∀ f ∈ (s.brick 0).mx.flights, f.due ≤ (s.brick 0).seq.clk ∧ f.dst < 16 ∧ f.lane < 16 ∧
      f.words.length = 4096 * (if f.fmt = 2 then 2 else 1) := by decide +kernel

theorem witness_ResultsLand_taps :
    (let s := matrixDue 7 0 3 false false
     (s.brick 0).hod.flights = [] ∧ (s.brick 0).task = none ∧ tap (s.brick 0) true 12 16 = none) ∧
    (let s := (matrixDue 7 0 3 false false).onBrick 0 fun x => { x with
        ring := { x.ring with lanes := (List.range 4).map fun i => { aw := true, lane := 12 + i, station := 16, clk := 10, data := some 3 } } }
     ∀ i < 4, tap (s.brick 0) true (12 + i) 16 ≠ none) := by decide +kernel

/-- 12 R242: APADD adds the tapped words to its segment; 12 R247: MZERO clears it; 11 R230: FTSEL stores level 6 as 7. -/
theorem test_landings :
    (match exec (.resultLanding 0 2) ((inFlight (.accSeg true 1 2 3)).onBrick 0 fun x => { x with
        flights := x.flights.map fun f => { f with value := ofElems 32 (List.replicate 16 0x40000000) }
        mx := { x.mx with acc := [(4096 + 128 + 48, 0x3F800000)] } }) with
     | .next t => decide (tget 0 (t.brick 0).mx.acc (4096 + 128 + 48) = 0x40400000 ∧ tget 0 (t.brick 0).mx.acc (4096 + 128 + 63) = 0x40000000)
     | _ => false) = true ∧
    (match exec (.resultLanding 0 2) ((inFlight (.accZero 1)).onBrick 0 fun x => { x with mx := { x.mx with acc := [(4096, 5), (8192, 6)] } }) with
     | .next t => decide ((t.brick 0).mx.acc = [(8192, 6)])
     | _ => false) = true ∧
    (match exec (.resultLanding 0 0) ((inFlight (.sys 0x023)).onBrick 0 fun x => { x with flights := x.flights.map fun f => { f with value := 0xFFFE } }) with
     | .next t => decide (sysGet (t.brick 0) 0x023 = 0x3F07)
     | _ => false) = true := by decide +kernel

/-- A correctable error while one's freeze runs to cycle 5, and with none. -/
theorem witness_ResultsLand_freeze :
    let x := { Brick.reset with frz := { Freeze.reset with ceUntil := 5 } }
    (x.frz.ceUntil ≠ 0 ∧ 4 ≤ x.frz.ceUntil) ∧ Brick.reset.frz.ceUntil = 0 := by decide

/-- The largest finite numbers; a quiet and a signalling NaN; a zero. -/
theorem witness_FloatsRoundOnce : ∀ f ∈ [f32, bf16, f64],
    let big := (2 ^ f.eb - 1) * 2 ^ f.fb - 1
    (big < 2 ^ (1 + f.eb + f.fb) ∧ big / 2 ^ f.fb % 2 ^ f.eb ≠ 2 ^ f.eb - 1) ∧
    (defaultNan f / 2 ^ f.fb % 2 ^ f.eb = 2 ^ f.eb - 1 ∧ defaultNan f % 2 ^ f.fb ≠ 0) ∧
    (let w := infOf f true + 1
     w / 2 ^ f.fb % 2 ^ f.eb = 2 ^ f.eb - 1 ∧ w % 2 ^ f.fb ≠ 0 ∧ w % 2 ^ f.fb < 2 ^ (f.fb - 1)) ∧
    (2 ^ (f.eb + f.fb) < 2 ^ (1 + f.eb + f.fb) ∧ 2 ^ (f.eb + f.fb) / 2 ^ f.fb % 2 ^ f.eb ≠ 2 ^ f.eb - 1 ∧ units f (2 ^ (f.eb + f.fb)) = 0) := by decide +kernel

theorem witness_DecodeAndEncodeAgree :
    (Instr.hpop ⟨always, true, 15, 65535, 63, 63, 15⟩).wf = true ∧ (encode (.hpop ⟨always, true, 15, 65535, 63, 63, 15⟩)).isSome = true ∧
      (decodeSlot 39 0x000800220000073A).isSome = true ∧ (decodeTimeline 0x10A1F440).isSome = true := by decide

theorem witness_StepRunsTheDecoded :
    (let s := { on0 fun x => { x with seq := { x.seq with held := [(1, 0x00008018019C0000), (2, 1)] } } with agenda := [.slot 1] }
     s.mason.pwrL2 = false ∧ (decodeSlot 1 (tget (0 : Word) (s.brick s.issue.brick).seq.held 1).toNat).isSome = true ∧
       decodeSlot 2 (tget (0 : Word) (s.brick s.issue.brick).seq.held 2).toNat = none) ∧
    (∀ w ∈ [0x10A1F440, 0], let s := { timed 0 100 { Channel.reset with timelines := [] } with
        channels := [(0, { Channel.reset with timelines := [⟨0, [BitVec.ofNat 32 w], 0, 0, 0, true⟩] })], agenda := [.timeline 0 0] }
     ((s.channel 0).timelines.filter fun l => l.task == 0 && l.running) = [⟨0, [BitVec.ofNat 32 w], 0, 0, 0, true⟩] ∧
       (decodeTimeline w).isSome = (w != 0) ∧ (s.task 0).image.timelines ≠ [] ∧ (s.task 0).tlStopped = false) := by decide

theorem witness_StepsKeepTheMemoriesForm : State.reset.memoryWf ∧ ∃ t, step State.reset = .next t :=
  ⟨by unfold State.memoryWf; decide, _, rfl⟩

/-- 06 R125's example: a page that is not present at byte offset 0x2000 of a transfer with status word 63 (the example's 5). -/
theorem test_page_fault_status : (match exec (.pageFault 0 63 1 0x2000) (transfer [] 1) with
    | .next t => statusWord t 0 63 | _ => 0) = 0x0000200000000109 := by decide +kernel

/-- The same example: the Mason aborts the transfer. -/
theorem test_aborted_status : (match exec (.vprespAbort 0 63) (transfer [] 0x0000200000000109) with
    | .next t => statusWord t 0 63 | _ => 0) = 0x0000200000000806 := by decide +kernel

/-- 10 R213's examples: 2^3 and 1/3. -/
theorem test_functions_of_three : (exp2F32 0x40400000).1 = 0x41000000 ∧ (rcpF32 0x40400000).1 = 0x3EAAAAAB := by decide +kernel

/-- 11 R221's examples, and two rows of R228's table of conversions. -/
theorem test_conversions : (convert 3 0 false 0x13).1 = 0x3FD744FD ∧ (convert 3 0 false 0x2D).1 = 0xBF1837F0 ∧
    (convert 0 1 false 0x3F808000).1 = 0x3F80 ∧ (convert 0 1 false 0x3F818000).1 = 0x3F82 ∧ (convert 0 1 true 0x3F818000).1 = 0x3F81 := by decide +kernel

/-- 04 R76's example. -/
theorem test_hbm_place : placeOf 120594590208 = ⟨2, 5, 5, 1000, 2⟩ ∧ (placeOf 120594590208).channel = 69 := by decide +kernel

/-- 09 R198's example. -/
theorem test_work_fields : [2, 1, 3].map (workField (8 + 8 * 2 ^ 6 + 16 * 2 ^ 12) 0x30502) = [3, 5, 0] := by decide +kernel

/-- 16 R298's example: 1.0 and two operands of 2^-8 give 0x3F81, where one at a time would leave 0x3F80. -/
theorem test_atomic_merge :
    let d : Line := ofElems 16 (List.replicate 32 0x3B80)
    (applyLine (mergeLineOp 0x52 (some (mergeLineOp 0x52 none d).1) d).1 (ofElems 16 (List.replicate 32 0x3F80))).1
      = ofElems 16 (List.replicate 32 0x3F81) := by decide +kernel

/-- 24 R404's table: the race of cycle 900, and the race of cycle 920 that port 1 wins. -/
theorem test_semaphore_race :
    (match exec (.hsemRead [0, 1]) State.reset with | .next t => (t.mason.hsem, t.reads.toNat / 2 ^ 64 % 2 ^ 32) | _ => (0, 0)) = (9, 9) := by decide +kernel

/-- 14 R263's example: one FP32 element goes through the coder and comes back. -/
theorem test_coder : codeTile 0 false [8, 4, 2, 2] 4 1 9 [0x00010000] [0x01123ABC] = some ([0x0800091D], [0x0ABC]) := by decide +kernel

/-- 16 R310's example: the parameters, and element 0 of the group. -/
theorem test_sgd_element :
    let h := { Held.fresh 0x40 0 0x40800000 0 0 0 with got := [⟨100000, ofElems 32 [0, 0, 0, 0, 0, 0, 0x3DCCCCCD, 0x3F666666, 0, 0, 0, 0x3F800000], false, 0⟩] }
    updElem h (updConsts h).1 0x3F000000 0x3F800000 0 0 = (0x3E000000, 0, 0x3F7CCCCD, .none) := by decide +kernel

/-- 16 R306, 22 R390: a write through the state window stores a register's fields; NRMST's reserved bits stay 0. -/
theorem test_window_masks_reserved :
    sysGet (editBrick Brick.reset (.sysReg 0x027 (BitVec.allOnes 64))) 0x027 = 0xFFFFFFFF00000001#64 ∧
    editBrick Brick.reset (.sysReg 0x044 1#64) = Brick.reset := by decide +kernel

/-- 08 R153, 22 R392: a value driven at station 3 clockwise two cycles ago stands at station 5. -/
theorem test_window_lane_value :
    let x := { Brick.reset with
      seq := { Brick.reset.seq with clk := 9 }, ring := { Brick.reset.ring with lanes := [⟨false, 4, 3, 7, some 1⟩] } }
    (editBrick x (.laneValue false 4 5 8)).ring.lanes = [⟨false, 4, 3, 7, some 8⟩] ∧
    editBrick x (.laneValue false 4 6 8) = x := by decide +kernel

/-- 24 R407 and R405: PWRLIM and HDMAW after reset, from their tables. -/
theorem test_mason_registers_at_reset : State.reset.masonRead .pwrlim = 4800 ∧ State.reset.masonRead (.hdmaw 1 7) = 0xFFF * 2 ^ 64 := by decide +kernel

/-- 22 R390: only a trapped brick's state can be read, and ring line 3 is line 3 of its image. -/
theorem test_window_reads_ring :
    let x := editBrick Brick.reset (.ringLine 3 77)
    let s := { State.reset with bricks := [(0, { x with trap := { x.trap with trapped := true } }), (1, x)] }
    s.windowLine 0 3 = some 77 ∧ s.windowLine 1 3 = none := by decide +kernel

end Sys2Proof.Tests
end

section
/-! PROOF of O48: the register and window writes of the Mason and the hosts, what reads return, the power clamp, measurements and
attestation. First what each write does to the state, once; then the obligation's three parts. -/

namespace Sys2Proof.Proofs

open Sys2Proof Sys2Proof.Machine Sys2Proof.Rules

/-! ### Fields of registers -/

/-- The model's word for a field and the statements' agree. -/
theorem fld_eq_field (v lo n : Nat) : fld v lo n = field v lo n := rfl

theorem fld_bit (v j : Nat) : fld v j 1 = v / 2 ^ j % 2 := rfl

theorem field_eq_mod (v n : Nat) : field v 0 n = v % 2 ^ n := by rw [field, Nat.pow_zero, Nat.div_one]

theorem disjointCols_iff (c d : Nat) : disjointCols c d = true ↔ apart c d := by
  simp only [disjointCols, apart, hasCol, fld_bit, List.all_eq_true, List.mem_range, Bool.not_eq_true',
    Bool.and_eq_false_imp, beq_iff_eq, beq_eq_false_iff_ne, not_and]

/-- Control columns that are apart from the data columns are stored with them (R406). -/
theorem admission_apart {v : Nat} (h : apart (field v 0 16) (field v 16 16)) : admission v = field v 0 32 := by
  have hd : disjointCols (fld v 0 16) (fld v 16 16) = true := (disjointCols_iff _ _).2 h
  simp only [admission, hd, if_true]
  simp only [fld, field]
  omega

/-- Control columns that overlap the data columns are not stored (R406). -/
theorem admission_overlap {v : Nat} (h : ¬ apart (field v 0 16) (field v 16 16)) : admission v = field v 0 16 := by
  have hd : ¬ disjointCols (fld v 0 16) (fld v 16 16) = true := fun hd => h ((disjointCols_iff _ _).1 hd)
  rw [admission, if_neg hd]
  exact Nat.add_zero _

theorem pathEntry_fields (v : Nat) :
    pathEntry (fld v 0 6) (fld v 6 10) = if 36 ≤ field v 0 6 then 0 else field v 0 16 := by
  have h : field v 0 6 + field v 6 10 % 1024 * 2 ^ 6 = field v 0 16 := by
    simp only [field]
    omega
  rw [pathEntry, fld_eq_field, fld_eq_field, h]

theorem dmaWindow_fields (v : Nat) :
    dmaWindow v = field v 0 3 + 2 ^ 12 * field v 12 52 + 2 ^ 64 * 0xFFF + 2 ^ 76 * field v 76 52 := by
  simp only [dmaWindow, fld_eq_field]
  omega

/-- Word i of a line made of words of w bits. -/
theorem field_packLine {w : Nat} (f : Nat → Nat) {i : Nat} (hi : i < 512 / w) :
    field (packLine w f).toNat (w * i) w = f i % 2 ^ w := by
  have hl : ((List.range (512 / w)).map f).length = 512 / w := by simp
  have h := elem_ofElems (xs := (List.range (512 / w)).map f) (by rw [hl]; exact Nat.mul_div_le 512 w) (hl ▸ hi)
  rw [getD_map f _ i (by simpa using hi), List.getElem_range] at h
  exact h

/-! ### Writes of registers -/

section Writes

variable (s : State) (v : Nat)

theorem exec_registerWrite_mason (r : MasonReg) : exec (.registerWrite 2 r v) s = .next (s.masonWrite r v) := rfl

theorem exec_registerWrite_host {p : Nat} (hp : p < 2) (r : MasonReg) :
    exec (.registerWrite p r v) s = .next (s.hostWrite p r v) :=
  congrArg Host.Outcome.next (if_neg (Nat.ne_of_lt hp))

/-- One step of a write of TORNOVF: a bit that is 1 clears the flag of its channel. -/
def clearTorn (stack v : Nat) (s : State) (ch : Nat) : State :=
  if fld v ch 1 = 1 then s.onChannel (32 * stack + ch) fun c => { c with tornOvf := false } else s

theorem masonWrite_tornovf (stack : Nat) :
    s.masonWrite (.tornovf stack) v = (List.range 32).foldl (clearTorn stack v) s := rfl

theorem clearTorn_only_channels (stack ch : Nat) :
    clearTorn stack v s ch = { s with channels := (clearTorn stack v s ch).channels } := by
  unfold clearTorn
  split <;> rfl

theorem channel_clearTorn_same (stack ch : Nat) :
    (clearTorn stack v s ch).channel (32 * stack + ch) = { s.channel (32 * stack + ch) with
      tornOvf := (s.channel (32 * stack + ch)).tornOvf && v / 2 ^ ch % 2 == 0 } := by
  rw [clearTorn, fld_bit]
  by_cases h : v / 2 ^ ch % 2 = 1
  · simp [h]
  · have h0 : v / 2 ^ ch % 2 = 0 := by omega
    simp [h0]

theorem channel_clearTorn_other {stack ch k : Nat} (h : k ≠ 32 * stack + ch) :
    (clearTorn stack v s ch).channel k = s.channel k := by
  unfold clearTorn
  split
  · exact State.channel_onChannel_other s _ h
  · rfl

theorem foldl_clearTorn_only_channels (stack n : Nat) : let t := (List.range n).foldl (clearTorn stack v) s
    t = { s with channels := t.channels } := by
  refine foldl_keeps (P := fun t : State => t = { s with channels := t.channels }) _ (fun t ch _ ht => ?_) s rfl
  rw [clearTorn_only_channels t v stack ch, ht]

theorem channel_foldl_clearTorn_outside {stack n k : Nat} (h : k < 32 * stack ∨ 32 * stack + n ≤ k) :
    ((List.range n).foldl (clearTorn stack v) s).channel k = s.channel k := by
  refine foldl_keeps (P := fun t : State => t.channel k = s.channel k) _ (fun t ch hch ht => ?_) s rfl
  have := List.mem_range.1 hch
  rw [channel_clearTorn_other t v (by omega), ht]

theorem channel_foldl_clearTorn_within (stack : Nat) {n ch : Nat} (h : ch < n) :
    ((List.range n).foldl (clearTorn stack v) s).channel (32 * stack + ch) = { s.channel (32 * stack + ch) with
      tornOvf := (s.channel (32 * stack + ch)).tornOvf && v / 2 ^ ch % 2 == 0 } := by
  induction n with
  | zero => exact absurd h (Nat.not_lt_zero ch)
  | succ n ih =>
    rw [List.range_succ, List.foldl_append, List.foldl_cons, List.foldl_nil]
    by_cases he : ch = n
    · rw [he, channel_clearTorn_same, channel_foldl_clearTorn_outside s v (.inr (Nat.le_refl _))]
    · rw [channel_clearTorn_other _ v (by omega), ih (by omega)]

/-- A RANKTBL entry is valid and names the package's own station (R357, R358). -/
def ownEntry (s : State) (e : Nat × Nat) : Prop := field e.2 12 1 = 1 ∧ field e.2 0 12 = s.station

/-- A write of RANKTBL leaves the rank of an entry that names this package, or the old rank where none does (R357). -/
theorem writeRank_rank (r : Nat) : let t := s.writeRank r v
    (∃ e ∈ t.ranktbl, ownEntry s e ∧ e.1 = t.rank) ∨ ((∀ e ∈ t.ranktbl, ¬ ownEntry s e) ∧ t.rank = s.rank) := by
  have hown : ∀ e : Nat × Nat, (fld e.2 12 1 == 1 && fld e.2 0 12 == s.station) = true ↔ ownEntry s e := fun e => by
    rw [Bool.and_eq_true, beq_iff_eq, beq_iff_eq, fld_eq_field, fld_eq_field, ownEntry]
  simp only [State.writeRank]
  cases hf : (tput 0 s.ranktbl r (v % 2 ^ 14)).find? fun e => fld e.2 12 1 == 1 && fld e.2 0 12 == s.station with
  | some e =>
    have he := List.find?_some hf
    exact .inl ⟨e, List.mem_of_find?_eq_some hf, (hown e).1 he, rfl⟩
  | none => exact .inr ⟨fun e he ho => List.find?_eq_none.1 hf e he ((hown e).2 ho), rfl⟩

/-- The state after the REFUSED bit of BRKCTL is written (R390). -/
def clearRefused (s : State) (b v : Nat) : State :=
  if v / 8 % 2 = 1 then s.onBrick b fun x => { x with trap := { x.trap with refused := false } } else s

/-- BRKCTL starts the action that its low two bits name (R390). -/
theorem masonWrite_brkctl (b : Nat) : s.masonWrite (.brkctl b) v = match v % 4 with
    | 1 => (clearRefused s b v).push [.event (.brkctlResume b)]
    | 2 => (clearRefused s b v).push [.event (.brkctlEnd b)]
    | 3 => (clearRefused s b v).push [.event (.brkctlPark b)]
    | _ => clearRefused s b v := by
  have h0 : fld v 0 2 = v % 4 := field_eq_mod v 2
  simp only [State.masonWrite, h0]
  rfl

theorem hostWrite_hdmaw {p : Nat} (i : Nat) (h : 4 ≤ s.mason.phase) : s.hostWrite p (.hdmaw p i) v =
    onMason s fun m => { m with hdmaw := tput dmaReset m.hdmaw (8 * p + i) (dmaWindow v) } := by
  simp only [State.hostWrite, h, and_self, if_true, onMason]

theorem hostWrite_pwrlim {p : Nat} (h : 4 ≤ s.mason.phase) : s.hostWrite p .pwrlim v =
    onMason s fun m => { m with pwrLimit := min 4800 (fld v 0 13) } := by
  simp only [State.hostWrite, Nat.not_lt.2 h, if_false, onMason]

theorem hostWrite_admitReg_locked {p n : Nat} (h : s.mason.admlock = true) : s.hostWrite p (.admitReg n) v = s := by
  simp only [State.hostWrite, h, true_or, if_true]

theorem hostWrite_admitReg_open {p n : Nat} (h : 4 ≤ s.mason.phase) (hl : s.mason.admlock = false) : s.hostWrite p (.admitReg n) v =
    onMason s fun m => { m with admitReg := tput 0 m.admitReg n (admission v) } := by
  simp only [State.hostWrite, hl, Nat.not_lt.2 h, Bool.false_eq_true, or_self, if_false, onMason]

theorem hostWrite_attnonce {p : Nat} : s.hostWrite p .attnonce v =
    if s.mason.attesting then s else onMason s fun m => { m with nonce := BitVec.ofNat 256 v } := by
  simp only [State.hostWrite]
  split <;> rfl

end Writes

/-! ### Writes through a state window -/

section Window

variable (x : Brick) (e : WindowEdit)

@[simp] theorem length_setNth {α : Type} (l : List α) (k : Nat) (f : α → α) : (setNth l k f).length = l.length := by
  simp [setNth]

/-- A write of a system register changes no other part of the brick. -/
theorem editBrick_sysReg (n : Nat) (v : Word) :
    editBrick x (.sysReg n v) = { x with sys := (editBrick x (.sysReg n v)).sys } := by
  rw [editBrick]
  split <;> rfl

@[simp] theorem editBrick_trap : (editBrick x e).trap = x.trap := by
  cases e with
  | sysReg n v => rw [editBrick_sysReg]
  | tag g v => rfl
  | _ => simp only [editBrick]

@[simp] theorem editBrick_task : (editBrick x e).task = x.task := by
  cases e with
  | sysReg n v => rw [editBrick_sysReg]
  | tag g v => rfl
  | _ => simp only [editBrick]

/-- An edit of no held command leaves the held commands. -/
theorem editBrick_held (hw : ∀ k i v, e ≠ .heldWord k i v) (ht : ∀ k r c, e ≠ .heldTime k r c)
    (hl : ∀ k i v p, e ≠ .heldLine k i v p) : (editBrick x e).held = x.held := by
  cases e with
  | sysReg n v => rw [editBrick_sysReg]
  | tag g v => rfl
  | heldWord k i v => exact absurd rfl (hw k i v)
  | heldTime k r c => exact absurd rfl (ht k r c)
  | heldLine k i v p => exact absurd rfl (hl k i v p)
  | _ => simp only [editBrick]

theorem editBrick_held_length : (editBrick x e).held.length = x.held.length := by
  cases e with
  | heldWord k i v => rw [editBrick, length_setNth]
  | heldTime k r c => rw [editBrick, length_setNth]
  | heldLine k i v p => rw [editBrick, length_setNth]
  | _ => rw [editBrick_held] <;> exact fun _ _ _ => nofun

theorem not_mem_without {α : Type} [DecidableEq α] (a : α) (l : List α) : a ∉ without a l := by
  simp [without]

/-- The bits of a record's kind that a write stores are those that are not reserved or zero. -/
theorem recordBits_bit (kind : Nat) {i : Nat} (hi : i < 128) :
    (recordBits kind).getLsbD i = true ↔ ¬ recordZero kind i := by
  have listed : ∀ k ∈ [0x03, 0x04, 0x21, 0], ∀ i < 128, (recordBits k).getLsbD i = true ↔ ¬ recordZero k i := by
    unfold recordZero
    decide
  by_cases k3 : kind = 0x03
  · exact k3 ▸ listed 0x03 (by simp) i hi
  by_cases k4 : kind = 0x04
  · exact k4 ▸ listed 0x04 (by simp) i hi
  by_cases k21 : kind = 0x21
  · exact k21 ▸ listed 0x21 (by simp) i hi
  have hb : recordBits kind = recordBits 0 := by
    unfold recordBits
    split
    · contradiction
    · contradiction
    · contradiction
    · rfl
  have hz : recordZero kind i ↔ recordZero 0 i := by simp [recordZero, k3, k4, k21]
  rw [hb, hz, listed 0 (by simp) i hi]

/-- The pollen record that a write of the window stores (R390). -/
theorem pollenRecord_bits (r : BitVec 128) : let w := r &&& recordBits (r.toNat % 256)
    (∀ i, i < 128 → ¬ recordZero (field r.toNat 0 8) i → w.getLsbD i = r.getLsbD i) ∧
    ∀ i, recordZero (field r.toNat 0 8) i → w.getLsbD i = false := by
  have hk : r.toNat % 256 = field r.toNat 0 8 := (field_eq_mod _ 8).symm
  simp only [hk, BitVec.getLsbD_and]
  constructor
  · intro i hi hz
    rw [(recordBits_bit _ hi).2 hz, Bool.and_true]
  · intro i hz
    have hi : i < 128 := by unfold recordZero at hz; omega
    rw [Bool.eq_false_iff.2 fun h => (recordBits_bit _ hi).1 h hz, Bool.and_false]

theorem saveLine_ring {n : Nat} (h : n < 32768) : saveLine x n = readLine x.ring.mem (64 * n) := by
  simp [saveLine, fixedLine, h]

theorem saveLine_vreg {c i : Nat} (hc : c < 8) (hi : i < 1024) :
    saveLine x (33280 + 1024 * c + i) = tget 0 x.vec.v (1024 * c + i) := by
  have hf : fixedLine (33280 + 1024 * c + i) = true := by simp [fixedLine]; omega
  have h1 : (33280 + 1024 * c + i - 33280) / 1024 = c := by omega
  have h2 : (33280 + 1024 * c + i - 33280) % 1024 = i := by omega
  simp only [saveLine, hf, h1, h2]
  rw [if_neg (by simp), if_neg (by omega), if_neg (by omega), if_neg (by omega), if_neg (by omega), if_neg (by omega),
    if_pos (by omega), vregKey, Nat.mul_comm]

theorem saveLine_operandMemory {n : Nat} (h : n < 2048) : saveLine x (46352 + n) = readLine x.mx.om (64 * n) := by
  have hf : fixedLine (46352 + n) = true := by simp [fixedLine]; omega
  simp only [saveLine, hf, Nat.add_sub_cancel_left]
  rw [if_neg (by simp), if_neg (by omega), if_neg (by omega), if_neg (by omega), if_neg (by omega), if_neg (by omega),
    if_neg (by omega), if_neg (by omega), if_neg (by omega), if_neg (by omega), if_neg (by omega), if_neg (by omega),
    if_pos (by omega)]

theorem saveLine_snapshot {k : Nat} (h : k < 32) :
    saveLine x (33088 + k) = packLine 64 fun i => (x.trap.snap.getD (8 * k + i) 0).toNat := by
  have hf : fixedLine (33088 + k) = true := by simp [fixedLine]; omega
  simp only [saveLine, hf, Nat.add_sub_cancel_left]
  rw [if_neg (by simp), if_neg (by omega), if_neg (by omega), if_pos (by omega)]

variable (s : State) (b : Nat)

theorem exec_stateWindowWrite_off (h : (s.brick b).trap.trapped = false) : exec (.stateWindowWrite b e) s = .next s :=
  congrArg Host.Outcome.next (if_neg (Bool.eq_false_iff.1 h))

theorem exec_stateWindowWrite_on (h : (s.brick b).trap.trapped = true) :
    exec (.stateWindowWrite b e) s = .next (s.onBrick b fun x => editBrick x e) :=
  congrArg Host.Outcome.next (if_pos h)

theorem windowLine_off (h : (s.brick b).trap.trapped = false) (n : Nat) : s.windowLine b n = none := by
  simp [State.windowLine, h]

theorem windowLine_on (h : (s.brick b).trap.trapped = true) {n : Nat} (hn : n < 54272) :
    s.windowLine b n = some (saveLine (s.brick b) n) := by
  simp [State.windowLine, h, imageLines, hn]

theorem vreg_editBrick_same (x : Brick) (c i : Nat) (v : Line) :
    tget 0 (editBrick x (.vreg c i v)).vec.v (1024 * c + i) = v := by
  have hk : 1024 * c + i = vregKey c i := by rw [vregKey, Nat.mul_comm]
  rw [editBrick, hk, tget_tput_same]

/-- A window shows what was written through it: the brick is still trapped (R390). -/
theorem windowLine_after_write (s : State) (b : Nat) (h : (s.brick b).trap.trapped = true) {e : WindowEdit} {t : State}
    (he : exec (.stateWindowWrite b e) s = .next t) {n : Nat} (hn : n < 54272) :
    t.windowLine b n = some (saveLine (editBrick (s.brick b) e) n) := by
  rw [exec_stateWindowWrite_on e s b h] at he
  cases he
  rw [windowLine_on _ b (by simpa using h) hn, State.brick_onBrick_same]

end Window

/-! ### Registers as they read -/

section Reads

variable (s : State)

/-- A window that no host has written (R405). -/
theorem masonRead_hdmaw_reset (p i : Nat) : State.reset.masonRead (.hdmaw p i) = 0xFFF * 2 ^ 64 := by
  have h : State.reset.mason.hdmaw = [] := rfl
  rw [State.masonRead, h, tget, tfind, Option.getD_none, dmaReset]

theorem brkctl_fields (x : Brick) : let w := x.brkctl
    field w 0 2 = 0 ∧ field w 2 1 = x.trap.trapped.toNat ∧ field w 3 1 = x.trap.refused.toNat ∧
      field w 32 32 = x.trap.rescyc % 2 ^ 32 := by
  have ht := x.trap.trapped.toNat_lt
  have hr := x.trap.refused.toNat_lt
  simp only [Brick.brkctl, field]
  omega

theorem pwrlim_fields (m : Mason) : let w := m.pwrlim
    field w 0 13 = m.pwrLimit % 2 ^ 13 ∧ field w 13 1 = m.pwrL1.toNat ∧ field w 14 1 = m.pwrL2.toNat ∧
      field w 32 13 = m.pwrLast % 2 ^ 13 := by
  have h1 := m.pwrL1.toNat_lt
  have h2 := m.pwrL2.toNat_lt
  simp only [Mason.pwrlim, field]
  omega

theorem qstat_fields (k q : Nat) : let w := s.qstat k q
    let x := (s.part k).queue q
    field w 0 5 = s.queueCount k q % 2 ^ 5 ∧ field w 5 3 = x.base % 2 ^ 3 ∧ field w 8 3 = min 7 (x.base + x.miss / 8) ∧
      field w 11 6 = x.miss % 2 ^ 6 ∧ field w 32 32 = x.overrun % 2 ^ 32 := by
  have he := Nat.min_le_left 7 (((s.part k).queue q).base + ((s.part k).queue q).miss / 8)
  simp only [State.qstat, Queue.eff, field]
  generalize min 7 (((s.part k).queue q).base + ((s.part k).queue q).miss / 8) = e at he ⊢
  omega

/-- Two 32-bit halves of an answer. -/
theorem answer_halves {lo hi : Nat} (hl : lo < 2 ^ 32) (hh : hi < 2 ^ 32) :
    field (BitVec.ofNat 256 (lo + hi * 2 ^ 32)).toNat 0 32 = lo ∧ field (BitVec.ofNat 256 (lo + hi * 2 ^ 32)).toNat 32 32 = hi := by
  simp only [BitVec.toNat_ofNat, field]
  omega

theorem exec_lnkretryRead_early {n : Nat} (h : s.mason.phase < 4) : exec (.lnkretryRead n) s = .next { s with reads := 0 } :=
  congrArg Host.Outcome.next (if_pos h)

theorem exec_lnkretryRead_ready {port : Nat} (h : 4 ≤ s.mason.phase) : exec (.lnkretryRead port) s =
    .next { onMason s fun m => { m with retryCount := tput 0 m.retryCount port 0, failCount := tput 0 m.failCount port 0 } with
      reads := BitVec.ofNat 256 (tget 0 s.mason.retryCount port % 2 ^ 32 + tget 0 s.mason.failCount port % 2 ^ 32 * 2 ^ 32) } :=
  congrArg Host.Outcome.next (if_neg (Nat.not_lt.2 h))

theorem exec_admitRead_early {n : Nat} (h : s.mason.phase < 4) : exec (.admitRead n) s = .next { s with reads := 0 } :=
  congrArg Host.Outcome.next (if_pos h)

theorem exec_admitRead_ready {n : Nat} (h : 4 ≤ s.mason.phase) : exec (.admitRead n) s =
    .next { onMason s fun m => { m with txdeny := tput 0 m.txdeny n 0 } with
      reads := BitVec.ofNat 256 (tget 0 s.mason.admitReg n % 2 ^ 32 + tget 0 s.mason.txdeny n % 2 ^ 16 * 2 ^ 32) } :=
  congrArg Host.Outcome.next (if_neg (Nat.not_lt.2 h))

theorem exec_admlockWrite_early (h : s.mason.phase < 4) : exec .admlockWrite s = .next s :=
  congrArg Host.Outcome.next (if_pos h)

theorem exec_admlockWrite_ready (h : 4 ≤ s.mason.phase) :
    exec .admlockWrite s = .next (onMason s fun m => { m with admlock := true }) :=
  congrArg Host.Outcome.next (if_neg (Nat.not_lt.2 h))

theorem exec_ydcecntRead (die : Nat) : exec (.ydcecntRead die) s =
    .next { s with reads := BitVec.ofNat 256 (tget 0 s.ydcecnt die), ydcecnt := tput 0 s.ydcecnt die 0 } := rfl

theorem exec_measurementExtend_own {i : Nat} (lo : 2 ≤ i) (hi : i ≤ 7) (v : BitVec 256) :
    exec (.measurementExtend i v) s = .next (s.extend i v) :=
  congrArg Host.Outcome.next (if_pos ⟨lo, hi⟩)

/-- Measurements 0 and 1 are not the kernel's (R408). -/
theorem exec_measurementExtend_other {i : Nat} (h : i < 2 ∨ 7 < i) (v : BitVec 256) :
    exec (.measurementExtend i v) s = .next s :=
  congrArg Host.Outcome.next (if_neg (by omega))

theorem attest_idle (h : s.mason.attesting = false) : s.attest = s := if_neg (Bool.eq_false_iff.1 h)

/-- The bytes that a report covers (R408). -/
def reportBytes (s : State) : List Byte :=
  wordBytes 32 s.mason.nonce.toNat ++
    ((List.range 8).flatMap fun i => wordBytes 32 (tget 0 s.mason.measure i).toNat) ++ wordBytes 8 s.bootStat.toNat

theorem attest_running (h : s.mason.attesting = true) : s.attest =
    { onMason s fun m => { m with attrep := reportBytes s ++ Config.mlDsaSign (sha3 (reportBytes s)), attesting := false } with
      out := s.out ++ [.attest (reportBytes s) (Config.mlDsaSign (sha3 (reportBytes s)))] } :=
  if_pos h

end Reads

/-! ### The power clamp -/

section Power

variable (watts : Nat) (s : State)

/-- A frame counts towards a change of level 1: above LIMIT while it is clear, below while it is set (R407). -/
def Crosses (m : Mason) (watts : Nat) : Prop := if m.pwrL1 then watts < m.pwrLimit else m.pwrLimit < watts

/-- The clamp's registers after a frame, given the run of frames that it ends (R407). -/
def framed (s : State) (watts run : Nat) : State :=
  onMason s fun m => { m with
    pwrLast := watts
    pwrRun := if run = 8 then 0 else run
    pwrL1 := if run = 8 then !m.pwrL1 else m.pwrL1
    pwrOver := decide (11 * m.pwrLimit < 10 * watts) }

/-- The agenda after a frame: the halt comes next where the frame is above 1.1 times LIMIT (R407). -/
def haltNext (s : State) (watts : Nat) : List Todo :=
  if 11 * s.mason.pwrLimit < 10 * watts then .event (.clampHalt 20 10 0) :: s.agenda else s.agenda

theorem exec_powerFrame : ∃ run, (Crosses s.mason watts → run = s.mason.pwrRun + 1) ∧ (¬ Crosses s.mason watts → run = 0) ∧
    exec (.powerFrame watts) s = .next { framed s watts run with agenda := haltNext s watts } := by
  refine ⟨if (if s.mason.pwrL1 then watts < s.mason.pwrLimit else s.mason.pwrLimit < watts) then s.mason.pwrRun + 1 else 0,
    fun h => if_pos h, fun h => if_neg h, congrArg Host.Outcome.next ?_⟩
  by_cases hx : 11 * s.mason.pwrLimit < 10 * watts
  · exact (if_pos (decide_eq_true hx)).trans (by rw [haltNext, if_pos hx]; rfl)
  · exact (if_neg (by simpa [Mason.excess] using hx)).trans (by rw [haltNext, if_neg hx]; rfl)

theorem exec_clampHalt {inlet flow junction : Nat} (h : 45 < inlet ∨ flow < 8 ∨ 105 < junction ∨ s.mason.pwrOver = true) :
    exec (.clampHalt inlet flow junction) s =
      .next { onMason s fun m => { m with pwrL2 := true } with out := s.out ++ [.removed] } :=
  congrArg Host.Outcome.next (if_pos h)

/-- A halted package with no reset to come does nothing more (R407). -/
theorem step_halted (h : s.mason.pwrL2 = true) (hi : s.inputs = []) : step s = .fault .clockHalted := by
  simp [step, State.fetch, State.halted, h, hi]

end Power

/-! ### The obligation -/

theorem masonWrites : Rules.MasonWrites := by
  refine ⟨fun k v s => ⟨rfl, rfl, rfl, rfl, rfl, rfl, ?_⟩, fun stack v s => ?_, fun r v s => ?_, fun b v s => ?_, fun p i n v s hp h4 => ?_,
    fun p v s hp => ?_, fun b e s => ?_, fun b s => ?_, fun s => ⟨fun b => ?_, ?_, fun k q => ?_, rfl, rfl⟩, fun p i => ?_⟩
  -- PATHTBL, TORNOVF, RANKTBL, BRKCTL
  · rw [exec_registerWrite_mason, State.masonWrite, pathEntry_fields]
  · exact ⟨_, exec_registerWrite_mason s v _, foldl_clearTorn_only_channels s v stack 32,
      fun ch hch => channel_foldl_clearTorn_within s v stack hch, fun k hk => channel_foldl_clearTorn_outside s v hk⟩
  · refine ⟨_, exec_registerWrite_mason s v _, rfl, ?_, fun q hq => tget_tput_other 0 s.ranktbl _ hq, writeRank_rank s v r⟩
    exact (tget_tput_same 0 s.ranktbl r _).trans (field_eq_mod v 14).symm
  · exact (exec_registerWrite_mason s v _).trans (congrArg Host.Outcome.next (masonWrite_brkctl s v b))
  -- the hosts' registers from PHASE 4 on
  · simp only [exec_registerWrite_host s v hp]
    refine ⟨?_, ?_, fun hl => ?_, fun hl ha => ?_, fun hl ha => ?_⟩
    · rw [hostWrite_hdmaw s v i h4, dmaWindow_fields, dmaReset]
    · rw [hostWrite_pwrlim s v h4, fld_eq_field]
    · rw [hostWrite_admitReg_locked s v hl]
    · rw [hostWrite_admitReg_open s v h4 hl, admission_apart ha]
    · rw [hostWrite_admitReg_open s v h4 hl, admission_overlap ha]
  -- ATTNONCE, and registers of the other agents
  · refine ⟨?_, fun r hr => ?_, fun r hr => ?_⟩
    · rw [exec_registerWrite_host s v hp, hostWrite_attnonce]
    · rw [exec_registerWrite_host s v hp]
      obtain rfl | rfl | rfl | ⟨k, rfl | rfl | rfl | rfl | rfl⟩ := hr <;> rfl
    · obtain rfl | ⟨k, i, rfl | rfl⟩ := hr <;> rfl
  -- the state window
  · refine ⟨exec_stateWindowWrite_off e s b, fun h => ⟨_, exec_stateWindowWrite_on e s b h, rfl,
      fun c hc => State.brick_onBrick_other s _ hc, ?_⟩⟩
    rw [State.brick_onBrick_same]
    refine ⟨editBrick_trap _ e, editBrick_task _ e, editBrick_held_length _ e, editBrick_held _ e, ?sreg, ?qpred, ?vreg, ?ringLine,
      ?format, ?pc, ?slatch, ?pollen, ?activeBank, ?hodUnits, ?region, ?barrier⟩
    case sreg => rintro i v rfl; exact ⟨not_mem_without _ _, rfl⟩
    case vreg => rintro c i v rfl; exact ⟨vreg_editBrick_same _ c i v, rfl, rfl, rfl, rfl⟩
    case ringLine => rintro line v rfl; exact ⟨readLine_writeLine _ _ v, rfl, rfl, rfl, rfl⟩
    case format => rintro i code rfl; rw [field_eq_mod]; rfl
    case barrier => rintro i v rfl; rw [field_eq_mod]; rfl
    case pc => rintro v rfl; rw [field_eq_mod]; rfl
    case pollen => rintro k r rfl; exact ⟨_, rfl, pollenRecord_bits r⟩
    case qpred => rintro i v rfl; rfl
    case slatch => rintro u v rfl; rfl
    case activeBank => rintro v rfl; rfl
    case hodUnits => rintro h d rfl; rfl
    case region => rintro o n k l rfl; rfl
  · refine ⟨windowLine_off s b, fun h => ?_⟩
    have on : ∀ n, n < 54272 → s.windowLine b n = some (saveLine (s.brick b) n) := fun n hn => windowLine_on s b h hn
    have after : ∀ (e : WindowEdit) (t : State), exec (.stateWindowWrite b e) s = .next t → ∀ n, n < 54272 →
        t.windowLine b n = some (saveLine (editBrick (s.brick b) e) n) := fun e t he n hn => windowLine_after_write s b h he hn
    refine ⟨fun n hn => ⟨_, on n hn⟩, fun n hn => ?_, fun c i hc hi => ?_, fun n hn => ?_, fun k hk => ⟨_, on _ (by omega), fun i hi => ?_⟩,
      fun line v t hl he => ?_, fun c i v t hc hi he => ?_⟩
    · rw [on n (by omega), saveLine_ring _ hn]
    · rw [on _ (by omega), saveLine_vreg _ hc hi]
    · rw [on _ (by omega), saveLine_operandMemory _ hn]
    · rw [saveLine_snapshot _ hk, field_packLine _ hi]
      exact Nat.mod_eq_of_lt (BitVec.isLt _)
    · rw [after _ t he _ (by omega), saveLine_ring _ hl]
      exact congrArg some (readLine_writeLine _ _ v)
    · rw [after _ t he _ (by omega), saveLine_vreg _ hc hi, vreg_editBrick_same]
  -- what reads return
  · exact brkctl_fields (s.brick b)
  · exact pwrlim_fields s.mason
  · exact qstat_fields s k q
  · exact masonRead_hdmaw_reset p i

theorem powerClamp : Rules.PowerClamp := by
  refine ⟨fun watts s => ?_, fun _ _ _ s h => exec_clampHalt s h, step_halted⟩
  obtain ⟨run, hc, hn, he⟩ := exec_powerFrame watts s
  refine ⟨_, he, rfl, ⟨fun h => ?_, fun h hr => ?_, fun h hr => ?_⟩, rfl, rfl, fun h => if_neg (Nat.not_lt.2 h),
    fun h => ⟨20, 10, 0, if_pos h⟩⟩
  · cases hn h
    exact ⟨rfl, rfl⟩
  · cases hc h
    have h8 : s.mason.pwrRun + 1 ≠ 8 := by omega
    exact ⟨if_neg h8, if_neg h8⟩
  · cases hc h
    have h8 : s.mason.pwrRun + 1 = 8 := by omega
    exact ⟨if_pos h8, if_pos h8⟩

theorem masonReadsAndMeasures : Rules.MasonReadsAndMeasures := by
  refine ⟨fun s => ⟨rfl, attest_running s, attest_idle s⟩, fun i v s => ?_, fun die s => ?_, fun n s h => ?_, fun port s h => ?_,
    fun n s h => ?_, fun s h => exec_admlockWrite_ready s h⟩
  · refine ⟨fun h => exec_measurementExtend_other s h v, fun lo hi => ⟨_, exec_measurementExtend_own s lo hi v, ?_, ?_, rfl⟩⟩
    · exact tget_tput_same _ _ _ _
    · exact fun j hj => tget_tput_other _ _ _ hj
  · exact ⟨_, exec_ydcecntRead s die, BitVec.toNat_ofNat _ _, tget_tput_same 0 s.ydcecnt die 0,
      fun d hd => tget_tput_other 0 s.ydcecnt 0 hd, rfl⟩
  · exact ⟨exec_lnkretryRead_early s h, exec_admitRead_early s h, exec_admlockWrite_early s h⟩
  · obtain ⟨hr, hf⟩ := answer_halves (Nat.mod_lt (tget 0 s.mason.retryCount port) (Nat.two_pow_pos 32))
      (Nat.mod_lt (tget 0 s.mason.failCount port) (Nat.two_pow_pos 32))
    exact ⟨_, exec_lnkretryRead_ready s h, hr, hf, tget_tput_same 0 s.mason.retryCount port 0, tget_tput_same 0 s.mason.failCount port 0,
      fun p hp => ⟨tget_tput_other 0 s.mason.retryCount 0 hp, tget_tput_other 0 s.mason.failCount 0 hp⟩, rfl⟩
  · obtain ⟨ha, hd⟩ := answer_halves (Nat.mod_lt (tget 0 s.mason.admitReg n) (Nat.two_pow_pos 32))
      (Nat.lt_trans (Nat.mod_lt (tget 0 s.mason.txdeny n) (Nat.two_pow_pos 16)) (by decide))
    exact ⟨_, exec_admitRead_ready s h, ha, hd, tget_tput_same 0 s.mason.txdeny n 0,
      fun p hp => tget_tput_other 0 s.mason.txdeny 0 hp, rfl⟩

/-- Settles O48: each clause is what one write, read or frame was shown to do above. -/
theorem masonAndHostWrites : Obligations.MasonAndHostWrites := ⟨masonWrites, powerClamp, masonReadsAndMeasures⟩

end Sys2Proof.Proofs
end

section
/-! PROOF of O47: the writes of a partition's settings. First what each refusal test of the model says, as an equivalence with the
statements' own words; then the two forms in which a register is stored, a range entry and a multicast window; then one theorem for
each write. -/

namespace Sys2Proof.Proofs

open Sys2Proof Sys2Proof.Machine Sys2Proof.Rules

/-! ### The tests of the writes -/

section Refusals

variable (s : State)

theorem partBusy_iff (k : Nat) : s.partBusy k = true ↔ occupied s k := by
  simp only [State.partBusy, occupied, List.any_eq_true, Bool.and_eq_true, beq_iff_eq]

theorem not_partBusy_iff (k : Nat) : (!s.partBusy k) = true ↔ ¬ occupied s k := by
  rw [Bool.not_eq_true', ← Bool.not_eq_true, partBusy_iff]

theorem withinCols_iff (c d : Nat) : withinCols c d = true ↔ inside c d := by
  simp only [withinCols, inside, hasCol, fld_bit, List.all_eq_true, List.mem_range, Bool.or_eq_true, Bool.not_eq_true',
    beq_eq_false_iff_ne, beq_iff_eq, Decidable.imp_iff_not_or, ne_eq]

/-- No column of c belongs to another partition than k (R78). -/
theorem columnsFree_iff (k c : Nat) : (s.parts.all fun q => q.1 == k || disjointCols q.2.fcol c) = true ↔
    ∀ q ∈ s.parts, q.1 ≠ k → apart q.2.fcol c := by
  simp only [List.all_eq_true, Bool.or_eq_true, beq_iff_eq, disjointCols_iff, Decidable.or_iff_not_imp_left, ne_eq]

/-- No brick of bs belongs to another partition than k (R27). -/
theorem bricksFree_iff (k : Nat) (bs : List Nat) :
    (s.parts.all fun q => q.1 == k || !(q.2.bricks.any fun b => bs.contains b)) = true ↔
      ∀ q ∈ s.parts, q.1 ≠ k → ∀ b ∈ q.2.bricks, b ∉ bs := by
  simp only [List.all_eq_true, Bool.or_eq_true, beq_iff_eq, Bool.not_eq_true', List.any_eq_false, List.contains_iff_mem,
    Decidable.or_iff_not_imp_left, ne_eq]

/-- The mask of a multicast window names bricks of the owner only (R137). -/
theorem maskOwned_iff (die v : Nat) (bricks : List Nat) :
    ((List.range 24).all fun b => fld v b 1 == 0 || bricks.contains (24 * die + b)) = true ↔
      ∀ b, b < 24 → v / 2 ^ b % 2 = 1 → 24 * die + b ∈ bricks := by
  simp only [List.all_eq_true, List.mem_range, Bool.or_eq_true, beq_iff_eq, List.contains_iff_mem, fld_bit,
    Decidable.or_iff_not_imp_left, Nat.mod_two_ne_zero]

end Refusals

/-! ### What each write executes -/

section Exec

variable (k v : Nat) (s : State)

theorem exec_fcolWrite : exec (.fcolWrite k v) s = execFcolWrite k v s := rfl

theorem exec_hodcolWrite : exec (.hodcolWrite k v) s = execHodcolWrite k v s := rfl

theorem exec_savcolWrite : exec (.savcolWrite k v) s = execSavcolWrite k v s := rfl

theorem exec_savebaseWrite : exec (.savebaseWrite v) s = execSavebaseWrite v s := rfl

theorem exec_rangeEntryWrite (i r : Nat) : exec (.rangeEntryWrite k i r v) s = execRangeEntryWrite k i r v s := rfl

theorem exec_mcwinWrite (die w : Nat) : exec (.mcwinWrite die w v) s = execMcwinWrite die w v s := rfl

theorem exec_partitionChange (bricks : List Nat) : exec (.partitionChange k bricks) s = execPartitionChange k bricks s := rfl

end Exec

/-- A write that the model stores where its test passes, and refuses elsewhere, is the write that the statements mean. -/
theorem written_of_exec {i : Instr} {s new : State} {ok test : Prop} {_ : Decidable test}
    (he : exec i s = .next (if test then new else s)) (hok : test ↔ ok) : written i s ok new :=
  ⟨_, he, fun h => if_pos (hok.2 h), fun h => if_neg (mt hok.1 h)⟩

/-! ### The columns, SAVEBASE and the bricks -/

section Columns

variable (k v : Nat) (s : State)

theorem written_fcolWrite : let c := field v 0 16
    written (.fcolWrite k v) s (¬ occupied s k ∧ (∀ q ∈ s.parts, q.1 ≠ k → apart q.2.fcol c) ∧ inside (s.part k).hodcol c ∧
      inside (s.part k).savcol c ∧ fitsSwitch s (s.part k).bricks c (s.part k).savcol) (s.onPart k fun p => { p with fcol := c }) := by
  rw [field_eq_mod]
  refine written_of_exec (exec_fcolWrite k v s) ?_
  simp only [Bool.and_eq_true, not_partBusy_iff, columnsFree_iff, withinCols_iff, fitsSwitch, and_assoc]

theorem written_hodcolWrite : let c := field v 0 16
    written (.hodcolWrite k v) s (inside c (s.part k).fcol ∧ apart c (s.part k).savcol)
      (s.onPart k fun p => { p with hodcol := c }) := by
  rw [field_eq_mod]
  refine written_of_exec (exec_hodcolWrite k v s) ?_
  simp only [Bool.and_eq_true, withinCols_iff, disjointCols_iff]

theorem written_savcolWrite : let c := field v 0 16
    written (.savcolWrite k v) s (inside c (s.part k).fcol ∧ apart c (s.part k).hodcol ∧
      fitsSwitch s (s.part k).bricks (s.part k).fcol c) (s.onPart k fun p => { p with savcol := c }) := by
  rw [field_eq_mod]
  refine written_of_exec (exec_savcolWrite k v s) ?_
  simp only [Bool.and_eq_true, withinCols_iff, disjointCols_iff, fitsSwitch, and_assoc]

theorem written_savebaseWrite : written (.savebaseWrite v) s
    (∀ q ∈ s.parts, Config.switchFits q.2.bricks q.2.fcol q.2.savcol v = true) { s with savebase := v } :=
  written_of_exec (exec_savebaseWrite v s) List.all_eq_true

theorem written_partitionChange (bricks : List Nat) : let bs := (List.range 768).filter fun b => decide (b ∈ bricks)
    written (.partitionChange k bricks) s
      (¬ occupied s k ∧ (∀ q ∈ s.parts, q.1 ≠ k → ∀ b ∈ q.2.bricks, b ∉ bs) ∧ fitsSwitch s bs (s.part k).fcol (s.part k).savcol)
      (s.onPart k fun p => { p with bricks := bs }) := by
  intro bs
  have hbs : ((List.range 768).filter fun b => bricks.contains b) = bs := by simp only [List.contains_eq_mem, bs]
  have he := exec_partitionChange k s bricks
  rw [execPartitionChange, hbs] at he
  clear_value bs
  refine written_of_exec he ?_
  rw [Bool.and_eq_true, Bool.and_eq_true, not_partBusy_iff, bricksFree_iff, and_assoc, fitsSwitch]

end Columns

/-! ### A multicast window -/

/-- The stored bits of a multicast window: MASK, SYNC and OWNER, the base and the limit, the others zero (R137). -/
theorem mcwinBits_fields (v : Nat) : let w := (BitVec.ofNat 64 (mcwinBits v)).toNat
    field w 0 28 = field v 0 28 ∧ field w 28 4 = 0 ∧ field w 32 15 = field v 32 15 ∧ field w 47 1 = 0 ∧
      field w 48 15 = field v 48 15 ∧ field w 63 1 = 0 := by
  simp only [mcwinBits, BitVec.toNat_ofNat, fld, field]
  omega

/-- The write looks at the owner that the window had (log entry 161). -/
theorem written_mcwinWrite (die w v : Nat) (s : State) : written (.mcwinWrite die w v) s
    (¬ occupied s (field (tget (0 : Word) s.mcwin (16 * die + w)).toNat 25 3) ∧
      ∀ b, b < 24 → v / 2 ^ b % 2 = 1 → 24 * die + b ∈ (s.part (field v 25 3)).bricks)
    { s with mcwin := tput 0 s.mcwin (16 * die + w) (BitVec.ofNat 64 (mcwinBits v)) } := by
  refine written_of_exec (exec_mcwinWrite v s die w) ?_
  rw [Bool.and_eq_true, not_partBusy_iff, maskOwned_iff, fld_eq_field, fld_eq_field]

/-! ### A range entry -/

section Ranges

variable (e : Range)

theorem range_valid_iff : e.valid = true ↔ field e.attr.toNat 0 1 = 1 := by
  rw [Range.valid, BitVec.getLsbD, Nat.testBit_zero, decide_eq_true_iff, field_eq_mod, Nat.pow_one]

/-- The value of a page's limit register: the last byte of the page (R119). -/
theorem toNat_page_or_fff {v : Nat} (h : v < 2 ^ 64) :
    (BitVec.ofNat 64 (v / 4096 * 4096) ||| 0xFFF#64).toNat = v / 4096 * 4096 + 4095 := by
  have hp : v / 4096 * 4096 % 2 ^ 64 = 2 ^ 12 * (v / 4096) := by omega
  rw [BitVec.toNat_or, BitVec.toNat_ofNat, hp, ← Nat.two_pow_add_eq_or_of_lt (by decide)]
  show 2 ^ 12 * (v / 4096) + 4095 = _
  omega

/-- The fields of an ATTR register, put together from their values. -/
theorem attrWord_fields {valid target x w y page : Nat} (hv : valid < 2) (ht : target < 8) (hx : x < 2) (hw : w < 2) (hy : y < 2)
    (hp : page < 2) :
    let a := (BitVec.ofNat 64 (valid + target * 2 + x * 2 ^ 4 + w * 2 ^ 5 + y * 2 ^ 6 + page * 2 ^ 7)).toNat
    a < 2 ^ 8 ∧ field a 0 1 = valid ∧ field a 1 3 = target ∧ field a 4 1 = x ∧ field a 5 1 = w ∧ field a 6 1 = y ∧
      field a 7 1 = page := by
  simp only [BitVec.toNat_ofNat, field]
  omega

theorem field_one_lt (v lo : Nat) : field v lo 1 < 2 := Nat.mod_lt _ (by decide)

/-- Each register of an entry is stored as R119 lays it out. -/
theorem rangeStored_store {r v : Nat} (hr : r < 4) (hv : v < 2 ^ 64) : rangeStored e r v (e.store r v) := by
  have hpage : (BitVec.ofNat 64 (v / 4096 * 4096)).toNat = v / 4096 * 4096 := by
    rw [BitVec.toNat_ofNat, Nat.mod_eq_of_lt (by omega)]
  match r, hr with
  | 0, _ => exact ⟨fun _ => ⟨hpage, rfl⟩, nofun, nofun, nofun⟩
  | 1, _ => exact ⟨nofun, fun _ => ⟨toNat_page_or_fff hv, rfl⟩, nofun, nofun⟩
  | 2, _ => exact ⟨nofun, nofun, fun _ => ⟨hpage, rfl⟩, nofun⟩
  | 3, _ =>
    have hbit (c : Prop) [Decidable c] (lo : Nat) : (if c then 0 else field v lo 1) < 2 := by
      split
      · decide
      · exact field_one_lt v lo
    refine ⟨nofun, nofun, nofun, fun _ => ⟨rfl, attrWord_fields (hbit _ 0) ?_ (field_one_lt v 4) (hbit _ 5) (field_one_lt v 6) ?_⟩⟩
    · split <;> omega
    · split
      · exact field_one_lt v 7
      · decide

/-- The addresses that an entry translates to run on from the first one, modulo 2^64 (R119). -/
theorem toNat_add_offset {p : Word} (h : e.base.toNat ≤ p.toNat) :
    (p + e.offset).toNat = ((e.base + e.offset).toNat + (p.toNat - e.base.toNat)) % 2 ^ 64 := by
  simp only [BitVec.toNat_add]
  omega

/-- The model's test of the two intervals, before and after the addresses wrap, finds exactly the entries that have an address in
the save area. -/
theorem reachesSave_iff {savebase : Nat} (hs : savebase < 2 ^ 64) : e.reachesSave savebase = true ↔ reaches e savebase := by
  have hlo := (e.base + e.offset).isLt
  have hlim := e.limit.isLt
  simp only [Range.reachesSave, reaches, Bool.and_eq_true, Bool.or_eq_true, decide_eq_true_eq]
  constructor
  · rintro ⟨hle, hcase⟩
    -- The save area's first address at or after the entry's first one, or, past the wrap, its first address.
    obtain ⟨d, hd, hin⟩ : ∃ d, d ≤ e.limit.toNat - e.base.toNat ∧ savebase ≤ ((e.base + e.offset).toNat + d) % 2 ^ 64 ∧
        ((e.base + e.offset).toNat + d) % 2 ^ 64 < savebase + 3072 * 3473408 := by
      rcases hcase with ⟨htop, hhi⟩ | ⟨hwrap, hhi⟩
      · exact ⟨savebase - (e.base + e.offset).toNat, by omega⟩
      · exact ⟨savebase + 2 ^ 64 - (e.base + e.offset).toNat, by omega⟩
    have hp : (BitVec.ofNat 64 (e.base.toNat + d)).toNat = e.base.toNat + d := Nat.mod_eq_of_lt (by omega)
    refine ⟨BitVec.ofNat 64 (e.base.toNat + d), by omega, by omega, ?_⟩
    rw [toNat_add_offset e (by omega), hp, Nat.add_sub_cancel_left]
    exact hin
  · rintro ⟨p, hbase, hlimit, hin⟩
    rw [toNat_add_offset e hbase] at hin
    omega

theorem written_rangeEntryWrite (k i r v : Nat) (s : State) (hs : s.savebase < 2 ^ 64) :
    let e := (tget Range.reset (s.part k).ranges i).store r v
    written (.rangeEntryWrite k i r v) s
      (¬ (field (tget Range.reset (s.part k).ranges i).attr.toNat 0 1 = 1 ∧ occupied s k) ∧
        ¬ (field e.attr.toNat 0 1 = 1 ∧ field e.attr.toNat 1 3 = 0 ∧ reaches e s.savebase))
      (s.onPart k fun p => { p with ranges := tput Range.reset p.ranges i e }) := by
  refine written_of_exec ((exec_rangeEntryWrite k v s i r).trans (congrArg Host.Outcome.next (ite_not _ _ _).symm)) ?_
  simp only [Bool.or_eq_true, Bool.and_eq_true, beq_iff_eq, range_valid_iff, partBusy_iff, Range.target, fld_eq_field,
    reachesSave_iff _ hs, not_or, and_assoc]

end Ranges

/-! ### The obligation -/

/-- Settles O47: each write passes the test that its rule gives, and stores what its rule says, as shown above. -/
theorem partitionSettings : Obligations.PartitionSettings :=
  ⟨written_fcolWrite, written_hodcolWrite, written_savcolWrite, written_savebaseWrite,
    fun k i _ _ s hr hv hs => ⟨_, rangeStored_store _ hr hv, written_rangeEntryWrite k i _ _ s hs⟩,
    fun die w v s => ⟨_, mcwinBits_fields v, written_mcwinWrite die w v s⟩,
    fun k bricks s => written_partitionChange k s bricks⟩

end Sys2Proof.Proofs
end
